-- ==== Sys2Proof/Word.lean ====
section
/-! DEFINITION. The bit widths of the block (00_scope.md R12) and the frame phase (10_state.md R21). -/

namespace Sys2Proof

/-- One stream unit (R12): eight bits. -/
abbrev Byte := BitVec 8

/-- A 7-bit address field of a RawFrame, X or Y (R12, R57, R58). -/
abbrev Address := BitVec 7

/-- Sixteen bits (`u16`, R19): a short timestamp, a coordinate on a port, a sensor extent. -/
abbrev Short := BitVec 16

/-- Thirty-two bits (`u32`, R19): a reconstructed timestamp, a counter. -/
abbrev Word := BitVec 32

/-- `phase` (R21), the number of bytes of the current RawFrame already held: the Scan step, or the Fetch
step that waits for byte 1, 2 or 3. No rule adds to it or masks it, so it is a set of names. -/
inductive Phase where
  /-- 0: the next byte is examined for the sync bit. -/
  | scan
  /-- 1: byte 0 is held, byte 1 is awaited. -/
  | fetch1
  /-- 2: bytes 0 and 1 are held, byte 2 is awaited. -/
  | fetch2
  /-- 3: bytes 0 to 2 are held, byte 3 is awaited. -/
  | fetch3
deriving DecidableEq, Repr

end Sys2Proof
end

