-- ==== Sys2Proof/Syntax.lean ====
section
/-! DEFINITION. The six operations of 30_encoding.md R70, one constructor per row of opcode_table.json. -/

namespace Sys2Proof

/-- An instruction is one input transaction, as the decoder reads it (R2, R14, R70). -/
inductive Instr where
  /-- SKIP (R76): byte `b`, bit 7 clear, taken at phase 0. -/
  | skip (b : Byte)
  /-- SYNC (R77): byte `b`, bit 7 set, taken at phase 0: byte 0 of a RawFrame. -/
  | sync (b : Byte)
  /-- COLLECT1 (R78): any byte taken at phase 1. -/
  | collect1 (b : Byte)
  /-- COLLECT2 (R78): any byte taken at phase 2. -/
  | collect2 (b : Byte)
  /-- FRAME (R79): the byte taken at phase 3 completes the RawFrame `1yyyyyyy pxxxxxxx tttttttt tttttttt` (R56);
  its operands are that frame's fields (log entry 5). -/
  | frame (y x : Address) (pol : Bool) (t : Short)
  /-- RESETREQ (R103): the side-band request, no operand. -/
  | resetReq
deriving DecidableEq, Repr

end Sys2Proof
end

