-- ==== Sys2Proof/WellFormed.lean ====
section
/-! DEFINITION. Which instructions the encoding can express (30_encoding.md R70, R73). -/

namespace Sys2Proof

/-- SKIP takes a byte whose sync bit is clear, SYNC one whose sync bit is set; every other operation takes any
operand (R70, R73). -/
def Instr.wellFormed : Instr → Bool
  | .skip b => !b.getLsbD 7
  | .sync b => b.getLsbD 7
  | .collect1 _ => true
  | .collect2 _ => true
  | .frame _ _ _ _ => true
  | .resetReq => true

end Sys2Proof
end

