-- ==== Sys2Proof/Decode.lean ====
section
/-! DEFINITION. From bytes to instructions (30_encoding.md R55 to R63, R70 to R73) and back. -/

namespace Sys2Proof

/-! ## Fields of a RawFrame (R60) -/

/-- The sync bit of a byte: bit 7 (R57). -/
def syncBit (b : Byte) : Bool := b.getLsbD 7

/-- Y: bits 6..0 of byte 0 (R57). -/
def fieldY (b0 : Byte) : Address := b0.extractLsb' 0 7

/-- X: bits 6..0 of byte 1, the mask 0x7F (R58). -/
def fieldX (b1 : Byte) : Address := b1.extractLsb' 0 7

/-- Polarity: bit 7 of byte 1 (R58, 90_conflicts.md C1). -/
def fieldPol (b1 : Byte) : Bool := b1.getLsbD 7

/-- The short timestamp, big-endian: byte 2 high, byte 3 low (R43, R59). -/
def fieldT (b2 b3 : Byte) : Short := b2 ++ b3

/-- The completed RawFrame of four bytes (R56, R60). Bit 7 of byte 0 is no part of a field. -/
def decodeFrame (b0 b1 b2 b3 : Byte) : Instr :=
  .frame (fieldY b0) (fieldX b1) (fieldPol b1) (fieldT b2 b3)

/-! ## The machine's decoder (R70, R75) -/

/-- The operation a byte selects at a phase, with the bytes held so far. Total: every byte at every phase
selects one operation (R71). -/
def decodeByte (ph : Phase) (fb0 fb1 fb2 b : Byte) : Instr :=
  match ph with
  | .scan => if syncBit b then .sync b else .skip b
  | .fetch1 => .collect1 b
  | .fetch2 => .collect2 b
  | .fetch3 => decodeFrame fb0 fb1 fb2 b

/-! ## Streams: the bytes of one instruction, with the frame bytes before it -/

/-- Why a list of bytes is not the stream of one instruction. -/
inductive DecodeReject where
  /-- More than one byte, and the first has its sync bit clear: a skip unit is one byte long (R55). -/
  | noSync
  /-- More than the four bytes of a RawFrame (R12). -/
  | tooLong
deriving DecidableEq, Repr

/-- The instruction that the LAST byte of the list selects, when the bytes before it are the bytes of the same
frame and the first was examined at phase 0 (R55, R70). No byte at all is the side-band request (R68). -/
def decodeStream : List Byte → Except DecodeReject Instr
  | [] => .ok .resetReq
  | [b] => .ok (decodeByte .scan 0 0 0 b)
  | [b0, b] => if syncBit b0 then .ok (decodeByte .fetch1 b0 0 0 b) else .error .noSync
  | [b0, b1, b] => if syncBit b0 then .ok (decodeByte .fetch2 b0 b1 0 b) else .error .noSync
  | [b0, b1, b2, b] => if syncBit b0 then .ok (decodeByte .fetch3 b0 b1 b2 b) else .error .noSync
  | _ :: _ :: _ :: _ :: _ :: _ => .error .tooLong

/-- The `n` bytes of a number, most significant first: the RawFrame word has byte 0 in bits 31..24 (R56). -/
def tableBytes : Nat → Nat → List Byte
  | 0, _ => []
  | n + 1, w => BitVec.ofNat 8 (w / 256 ^ n) :: tableBytes n w

/-- The number that bytes spell, most significant first. -/
def tableNumber : List Byte → Nat
  | [] => 0
  | b :: bs => b.toNat * 256 ^ bs.length + tableNumber bs

/-- The decoder on a word numbered as opcode_table.json numbers it (log entry 7): 8 bits are a byte at phase 0
(SKIP, SYNC), 32 bits are a whole RawFrame W (FRAME, R73). 16 and 24 bits are a frame's first bytes, whose last
byte is COLLECT1's or COLLECT2's; no bits are RESETREQ. -/
def decodeTableWord (nbits w : Nat) : Option Instr :=
  if nbits % 8 = 0 ∧ nbits ≤ 32 ∧ w < 2 ^ nbits then
    match decodeStream (tableBytes (nbits / 8) w) with
    | .ok i => some i
    | .error _ => none
  else none

/-! ## The encoder -/

/-- The four bytes of `F(y, x, p, t)`: `0x80 | y, (p << 7) | x, t[15:8], t[7:0]` (R18, R56). -/
def encodeFrame (y x : Address) (pol : Bool) (t : Short) : List Byte :=
  [1#1 ++ y, BitVec.ofBool pol ++ x, t.extractLsb' 8 8, t.extractLsb' 0 8]

/-- The bytes of an instruction. COLLECT1 and COLLECT2 mean something only inside a frame, so the frame bytes
before theirs are put first: a sync byte 0x80 and a byte 1 of 0x00 (log entry 7). RESETREQ has no bits (R68). -/
def encode : Instr → List Byte
  | .skip b => [b]
  | .sync b => [b]
  | .collect1 b => [0x80#8, b]
  | .collect2 b => [0x80#8, 0x00#8, b]
  | .frame y x pol t => encodeFrame y x pol t
  | .resetReq => []

/-- The same as a word numbered as opcode_table.json numbers it, with its length in bits. -/
def encodeTableWord (i : Instr) : Nat × Nat :=
  (8 * (encode i).length, tableNumber (encode i))

end Sys2Proof
end

