-- ==== Sys2Proof/Config.lean ====
section
/-! DEFINITION. The build parameters of an instance (00_scope.md R8, R10). What an instance is built with is
data of the model (log entry 4); the block leaves no value free (20_memory.md R54), so nothing here is opaque. -/

namespace Sys2Proof.Config

/-- The two legal values of `WRAP_CEILING` (R8). Another value cannot be written, and `State.build` refuses it. -/
inductive WrapCeiling where
  /-- 0x7FFFFFFF, the signed 32-bit ceiling: the spec's default (R8, 92_eei_decisions.md D7). -/
  | signed
  /-- 0xFFFFFFFF, the unsigned 32-bit ceiling. -/
  | unsigned
deriving DecidableEq, Repr

/-- The build parameters, fixed for the life of an instance (R34). -/
structure Params where
  /-- `WRAP_CEILING` (R8). -/
  wrapCeiling : WrapCeiling
  /-- `RESET_EVENT_TS` (R10): any 32-bit value. -/
  resetEventTs : Word
deriving DecidableEq, Repr

/-- The spec's defaults: `WRAP_CEILING` = 0x7FFFFFFF (R8), `RESET_EVENT_TS` = 0x7FFFFFFF (R10). -/
def Params.default : Params :=
  ⟨.signed, 0x7FFFFFFF#32⟩

end Sys2Proof.Config
end

