-- ==== Sys2Proof/Machine/State.lean ====
section
/-! DEFINITION. The state of the block (10_state.md R20), the input ports that drive it
(43_ports_and_handshake.md R120), and its value after hardware reset (70_reset_and_hazards.md R160). -/

namespace Sys2Proof.Machine

/-- The source's TimeBaseState (R20, R24 to R28). -/
structure TimeBase where
  /-- `wrap_overflow` (R24): big wraps since the last clear. -/
  wrapOverflow : Word
  /-- `wrap_add` (R25): normal wraps of the epoch times 0x10000. -/
  wrapAdd : Word
  /-- `last_short` (R26): what the wrap test compares against. -/
  lastShort : Short
  /-- `last` (R27): what the monotonicity check compares against. -/
  last : Word
  /-- `current` (R28): the reconstructed timestamp. -/
  current : Word
deriving DecidableEq, Repr

/-- The condition counters (R29 to R31). -/
structure Counters where
  /-- `cnt_resync` (R29). -/
  resync : Word
  /-- `cnt_drop` (R30). -/
  drop : Word
  /-- `cnt_mono` (R31). -/
  mono : Word
deriving DecidableEq, Repr

/-- The payload of the event port (R64). -/
structure Event where
  /-- `ev_kind[1:0]`, coded by R65. -/
  kind : BitVec 2
  /-- `ev_ts[31:0]`. -/
  ts : Word
  /-- `ev_x[15:0]`. -/
  x : Short
  /-- `ev_y[15:0]`. -/
  y : Short
  /-- `ev_pol`. -/
  pol : Bool
  /-- `ev_seal`: the sink seals its open batch after appending this event. -/
  sealBit : Bool
deriving DecidableEq, Repr

/-- The one-entry output event register `out` (R32). -/
structure OutReg where
  /-- `ev_valid`. -/
  valid : Bool
  /-- The payload, held also while `ev_valid` is 0 (R125, log entry 10). -/
  ev : Event
deriving DecidableEq, Repr

/-- The strobe registers (R33). -/
structure Strobes where
  /-- `cmd_ts_reset` (R126). -/
  cmdTsReset : Bool
  /-- `st_resync` (R127). -/
  stResync : Bool
  /-- `st_drop` (R127). -/
  stDrop : Bool
  /-- `st_mono` (R127). -/
  stMono : Bool
deriving DecidableEq, Repr

/-- The levels of the input ports in one clock cycle (R120). -/
structure Pins where
  /-- `rst`: synchronous reset, active high. -/
  rst : Bool
  /-- `in_valid`: `inData` holds a byte of the stream. -/
  inValid : Bool
  /-- `in_data[7:0]`. -/
  inData : Byte
  /-- `ts_reset_req`: one timestamp-reset request in this cycle. -/
  tsResetReq : Bool
  /-- `cfg_size_x[15:0]`. -/
  cfgSizeX : Short
  /-- `cfg_size_y[15:0]`. -/
  cfgSizeY : Short
  /-- `ev_ready`: the sink takes the event at this edge. -/
  evReady : Bool
deriving DecidableEq, Repr

/-- The block's registers (R20), the instance's parameters (R8, R10; log entry 4), and what the environment
drives: this cycle's input levels and those of the cycles to come (log entry 1). -/
structure State where
  /-- The build parameters: no rule writes them (R34). -/
  params : Config.Params
  /-- `phase` (R21). -/
  phase : Phase
  /-- `fb0` (R22). -/
  fb0 : Byte
  /-- `fb1` (R22). -/
  fb1 : Byte
  /-- `fb2` (R22). -/
  fb2 : Byte
  /-- `reset_pending` (R23). -/
  resetPending : Bool
  /-- TimeBaseState. -/
  tb : TimeBase
  /-- The condition counters. -/
  cnt : Counters
  /-- The output event register. -/
  out : OutReg
  /-- The strobe registers. -/
  strobes : Strobes
  /-- This cycle's input levels. -/
  pins : Pins
  /-- The input levels of the cycles after this one, the next first. -/
  inputs : List Pins
deriving DecidableEq, Repr

/-- Reasons to stop with a fault: none. "A model of the block has no fault outcome for any input transaction"
(60_exceptions.md R147). -/
inductive Fault where
deriving DecidableEq, Repr

/-- What the model refuses. No transaction and no edge of the block is refused (R123, R147). -/
inductive Refusal where
  /-- Raised by an arm of `exec` for an instruction that has no meaning yet. Safe. No arm raises it now. -/
  | notModelled (mnemonic : String)
  /-- Raised by `State.build` for a WRAP_CEILING that is not one of the two legal values (R8). Safe. -/
  | illegalWrapCeiling (value : Word)
  /-- Raised by `Sink.append` for an event whose kind is the reserved code 3 (R67). Safe. -/
  | reservedEventKind
  /-- Raised by `checkedStep` for a run whose byte source changes or drops a byte that was offered and not taken
  (R122; 93_implementation_defined.md section 2). Safe. `step` itself never raises it (log entry 9). -/
  | byteWithdrawn
deriving DecidableEq, Repr

/-- Every TimeBaseState field 0 (R160). -/
def TimeBase.zero : TimeBase := ⟨0, 0, 0, 0, 0⟩

/-- Every counter 0 (R160). -/
def Counters.zero : Counters := ⟨0, 0, 0⟩

/-- Every payload field 0 (R160). -/
def Event.zero : Event := ⟨0, 0, 0, 0, false, false⟩

/-- No event presented, payload 0 (R160). -/
def OutReg.empty : OutReg := ⟨false, Event.zero⟩

/-- Every strobe 0 (R160). -/
def Strobes.low : Strobes := ⟨false, false, false, false⟩

/-- Every input port low (log entry 3). -/
def Pins.low : Pins := ⟨false, false, 0, false, 0, 0, false⟩

/-- The block right after hardware reset: every element of R160 at its value, the parameters at the spec's
defaults (R8, R10), nothing driven on the input ports (log entries 3 and 14). -/
def State.reset : State :=
  { params := Config.Params.default
    phase := .scan
    fb0 := 0x00#8
    fb1 := 0x00#8
    fb2 := 0x00#8
    resetPending := false
    tb := TimeBase.zero
    cnt := Counters.zero
    out := OutReg.empty
    strobes := Strobes.low
    pins := Pins.low
    inputs := [] }

end Sys2Proof.Machine
end

