-- ==== Sys2Proof/Machine/Flags.lean ====
section
/-! DEFINITION. The logged conditions (60_exceptions.md R140 to R144). The block has no flag register; a condition
is what it raises instead: a counter and a one-cycle strobe. -/

namespace Sys2Proof.Machine

/-- The conditions of R141, without the info a model may record with them (log entry 16). -/
inductive Condition where
  /-- Code 1: a byte with bit 7 clear taken at phase 0 (R142). -/
  | resync
  /-- Code 2: a completed frame failed the range check (R143). -/
  | rangeDrop
  /-- Code 3: `Advance` computed a timestamp below the previous one (R144). -/
  | monoWarn
deriving DecidableEq, Repr

/-- The condition codes of R141; 0 is "none". -/
def Condition.code : Condition → Nat
  | .resync => 1
  | .rangeDrop => 2
  | .monoWarn => 3

/-- `raise` (R17, R141): the condition's counter goes up by one modulo 2^32 and its strobe is raised. It stops,
traps and redirects nothing (R140). -/
def State.raise (c : Condition) (s : State) : State :=
  match c with
  | .resync =>
    { s with cnt := { s.cnt with resync := s.cnt.resync + 1 }
             strobes := { s.strobes with stResync := true } }
  | .rangeDrop =>
    { s with cnt := { s.cnt with drop := s.cnt.drop + 1 }
             strobes := { s.strobes with stDrop := true } }
  | .monoWarn =>
    { s with cnt := { s.cnt with mono := s.cnt.mono + 1 }
             strobes := { s.strobes with stMono := true } }

/-- The conditions whose strobe is high, in the order their tests run (R146). -/
def Strobes.conditions (st : Strobes) : List Condition :=
  (if st.stResync then [.resync] else []) ++ (if st.stMono then [.monoWarn] else []) ++
    (if st.stDrop then [.rangeDrop] else [])

end Sys2Proof.Machine
end

