-- ==== Sys2Proof/Machine/Operands.lean ====
section
/-! DEFINITION. The constants and the operand forms the rules read: parameters as numbers (00_scope.md R7 to R11),
zero-extension (R16), the range check (41_field_extractor.md R88), the wrap tests
(42_timestamp_reconstructor.md R104, R105). -/

namespace Sys2Proof.Machine

open Sys2Proof.Config

/-- `TS_WRAP_ADD` (R7). -/
def tsWrapAdd : Nat := 0x10000

/-- `WRAP_EVENT_TS` (R9). -/
def wrapEventTs : Word := 0x7FFFFFFF#32

/-- The word an instance is built with (R8). -/
def ceilingWord : WrapCeiling → Word
  | .signed => 0x7FFFFFFF#32
  | .unsigned => 0xFFFFFFFF#32

/-- The legal ceiling a word stands for; any other word stands for none (R8). -/
def ceilingOfWord (v : Word) : Option WrapCeiling :=
  if v = ceilingWord .signed then some .signed
  else if v = ceilingWord .unsigned then some .unsigned
  else none

/-- `WRAP_CEILING` as the natural number that the big-wrap test compares against (R8, R16). -/
def ceilingNat (p : Params) : Nat := (ceilingWord p.wrapCeiling).toNat

/-- A 7-bit address on a 16-bit port: `zext_16` (R12, R60). -/
def zextAddress (a : Address) : Short := a.setWidth 16

/-- A short timestamp as a 32-bit value: `zext_32` (R109). -/
def zextShort (t : Short) : Word := t.setWidth 32

/-- The range check: `x < cfg_size_x` and `y < cfg_size_y`, unsigned, with the configuration present at this edge
(R88, R91, R128). -/
def inRange (y x : Address) (p : Pins) : Bool :=
  decide (zextAddress x < p.cfgSizeX) && decide (zextAddress y < p.cfgSizeY)

/-- The wrap test: strictly below `last_short`, unsigned (R104). -/
def wrapDetected (t : Short) (tb : TimeBase) : Bool := decide (t < tb.lastShort)

/-- The ceiling test of a detected wrap: the exact sum `wrap_add + TS_WRAP_ADD` is above `WRAP_CEILING` (R105). -/
def ceilingReached (p : Params) (tb : TimeBase) : Bool :=
  decide (ceilingNat p < tb.wrapAdd.toNat + tsWrapAdd)

/-- The instance's block after hardware reset, built with any two words: the ceiling must be legal (R8), the reset
timestamp may be any (R10). -/
def State.build (wrapCeiling resetEventTs : Word) : Host.Outcome State Fault Refusal :=
  match ceilingOfWord wrapCeiling with
  | some c => .next { State.reset with params := ⟨c, resetEventTs⟩ }
  | none => .refused (.illegalWrapCeiling wrapCeiling)

end Sys2Proof.Machine
end

