-- ==== Sys2Proof/Machine/Ops.lean ====
section
/-! DEFINITION. The primitives the rules are written with (00_scope.md R17) over the registers. The block takes no
exception and returns from none (60_exceptions.md R147), so there is no such operation here; `raise` stands in
Machine/Flags.lean. There is no memory (20_memory.md R40). -/

namespace Sys2Proof.Machine

/-! ## Register writes -/

/-- `phase <- p`. -/
def State.setPhase (p : Phase) (s : State) : State := { s with phase := p }

/-- `fb0 <- b`. -/
def State.setFb0 (b : Byte) (s : State) : State := { s with fb0 := b }

/-- `fb1 <- b`. -/
def State.setFb1 (b : Byte) (s : State) : State := { s with fb1 := b }

/-- `fb2 <- b`. -/
def State.setFb2 (b : Byte) (s : State) : State := { s with fb2 := b }

/-- `reset_pending <- r`. -/
def State.setResetPending (r : Bool) (s : State) : State := { s with resetPending := r }

/-- TimeBaseState as a whole. -/
def State.setTimeBase (tb : TimeBase) (s : State) : State := { s with tb := tb }

/-! ## Events and the command (R17) -/

/-- `emit`: load the output register and present it (R32, R124). -/
def State.emit (e : Event) (s : State) : State := { s with out := ⟨true, e⟩ }

/-- `command(TS_RESET)`: raise the command strobe (R102, R126). -/
def State.command (s : State) : State :=
  { s with strobes := { s.strobes with cmdTsReset := true } }

/-- The PixelEvent of a frame (R66, R90). -/
def pixelEvent (ts : Word) (y x : Address) (pol : Bool) : Event :=
  { kind := 0, ts := ts, x := zextAddress x, y := zextAddress y, pol := pol, sealBit := false }

/-- A TimestampWrap event (R66). -/
def wrapEvent (ts : Word) : Event :=
  { kind := 1, ts := ts, x := 0, y := 0, pol := false, sealBit := true }

/-- A TimestampReset event (R66). -/
def resetEvent (ts : Word) : Event :=
  { kind := 2, ts := ts, x := 0, y := 0, pol := false, sealBit := true }

end Sys2Proof.Machine
end

