-- ==== Sys2Proof/Machine/Reconstructor.lean ====
section
/-! DEFINITION. The timestamp reconstructor (42_timestamp_reconstructor.md): `Advance` (R100) and RESETREQ (R103). -/

namespace Sys2Proof.Machine

open Sys2Proof.Config

/-- The `special` half of `Advance`'s result (R100). -/
inductive Special where
  | none
  | reset
  | wrap
deriving DecidableEq, Repr

/-- The big wrap (R105): all fields 0 but `wrap_overflow`, which goes up by one modulo 2^32 (R113). -/
def TimeBase.bigWrap (tb : TimeBase) : TimeBase :=
  { TimeBase.zero with wrapOverflow := tb.wrapOverflow + 1 }

/-- The normal wrap (R106): `wrap_add <- wrap_add + TS_WRAP_ADD`, `last_short <- 0`. -/
def TimeBase.normalWrap (tb : TimeBase) : TimeBase :=
  { tb with wrapAdd := tb.wrapAdd + BitVec.ofNat 32 tsWrapAdd, lastShort := 0 }

/-- No wrap (R107): `last_short <- raw_short_ts`. -/
def TimeBase.noWrap (t : Short) (tb : TimeBase) : TimeBase :=
  { tb with lastShort := t }

/-- `last <- current`, then `current <- wrap_add + zext_32(raw_short_ts)` (R108, R109). -/
def TimeBase.compute (t : Short) (tb : TimeBase) : TimeBase :=
  { tb with last := tb.current, current := tb.wrapAdd + zextShort t }

/-- TimeBaseState after a frame that is neither RESET nor WRAP (R106 to R109). -/
def TimeBase.track (t : Short) (tb : TimeBase) : TimeBase :=
  (if wrapDetected t tb then tb.normalWrap else tb.noWrap t).compute t

/-- The monotonicity check (R110): raise MONO_WARN if `current < last`, and go on. -/
def State.checkMonotonic (s : State) : State :=
  if s.tb.current < s.tb.last then s.raise .monoWarn else s

/-- The reset branch (R101): TimeBaseState and the latch cleared, the command strobe raised (R102). -/
def State.applyReset (s : State) : State :=
  ((s.setTimeBase TimeBase.zero).setResetPending false).command

/-- `Advance` (R100): the timestamp, the special event if there is one, and the state after it. -/
def advance (t : Short) (s : State) : Word × Special × State :=
  if s.resetPending then (s.params.resetEventTs, .reset, s.applyReset)
  else if wrapDetected t s.tb && ceilingReached s.params s.tb then
    (wrapEventTs, .wrap, s.setTimeBase s.tb.bigWrap)
  else
    let s' := s.setTimeBase (s.tb.track t)
    (s'.tb.current, .none, s'.checkMonotonic)

/-- RESETREQ (R103): `reset_pending <- 1`. -/
def execResetReq (s : State) : Host.Outcome State Fault Refusal :=
  .next (s.setResetPending true)

end Sys2Proof.Machine
end

