-- ==== Sys2Proof/Machine/FieldExtractor.lean ====
section
/-! DEFINITION. The bit-field extractor's Dispatch (41_field_extractor.md R85 to R96) and the FRAME operation
(40_frame_synchronizer.md R79). The fields themselves are extracted by the decoder (R60, log entry 5). -/

namespace Sys2Proof.Machine

/-- Dispatch (R85): `Advance` first (R86), then exactly one of the four outcomes of 30_encoding.md R72: RESET and WRAP
emit a special event (R87), PIXEL a PixelEvent (R90), DROP nothing (R89). -/
def dispatch (y x : Address) (pol : Bool) (t : Short) (s : State) : State :=
  match advance t s with
  | (ts, .reset, s') => s'.emit (resetEvent ts)
  | (ts, .wrap, s') => s'.emit (wrapEvent ts)
  | (ts, .none, s') =>
    if inRange y x s.pins then s'.emit (pixelEvent ts y x pol) else s'.raise .rangeDrop

/-- FRAME (R79): `phase <- 0`, then the frame is processed in full in this transaction (R47). -/
def execFrame (y x : Address) (pol : Bool) (t : Short) (s : State) :
    Host.Outcome State Fault Refusal :=
  .next (dispatch y x pol t (s.setPhase .scan))

end Sys2Proof.Machine
end

