-- ==== Sys2Proof/Machine/FrameSync.lean ====
section
/-! DEFINITION. The frame synchronizer's operations on bytes 0 to 2 of a frame and on skipped bytes
(40_frame_synchronizer.md R76 to R78). Each is the effect of an operation that the decoder has selected by the phase
(R75, log entry 6). -/

namespace Sys2Proof.Machine

/-- SKIP (R76): raise RESYNC; the byte is discarded, `phase` and the held bytes stay. -/
def execSkip (_b : Byte) (s : State) : Host.Outcome State Fault Refusal :=
  .next (s.raise .resync)

/-- SYNC (R77): `fb0 <- b`, `phase <- 1`. -/
def execSync (b : Byte) (s : State) : Host.Outcome State Fault Refusal :=
  .next ((s.setFb0 b).setPhase .fetch1)

/-- COLLECT1 (R78): `fb1 <- b`, `phase <- 2`. -/
def execCollect1 (b : Byte) (s : State) : Host.Outcome State Fault Refusal :=
  .next ((s.setFb1 b).setPhase .fetch2)

/-- COLLECT2 (R78): `fb2 <- b`, `phase <- 3`. -/
def execCollect2 (b : Byte) (s : State) : Host.Outcome State Fault Refusal :=
  .next ((s.setFb2 b).setPhase .fetch3)

end Sys2Proof.Machine
end

