-- ==== Sys2Proof/Machine/Dispatch.lean ====
section
/-! DEFINITION. Every operation of 30_encoding.md R70 to its meaning. -/

namespace Sys2Proof.Machine

def exec (i : Instr) (s : State) : Host.Outcome State Fault Refusal :=
  match i with
  | .skip b => Sys2Proof.Machine.execSkip b s
  | .sync b => Sys2Proof.Machine.execSync b s
  | .collect1 b => Sys2Proof.Machine.execCollect1 b s
  | .collect2 b => Sys2Proof.Machine.execCollect2 b s
  | .frame y x pol t => Sys2Proof.Machine.execFrame y x pol t s
  | .resetReq => Sys2Proof.Machine.execResetReq s

end Sys2Proof.Machine
end

