-- ==== Sys2Proof/Machine/Ports.lean ====
section
/-! DEFINITION. The ports within one clock cycle (43_ports_and_handshake.md R120 to R128): the two handshakes, and
what the output ports show. -/

namespace Sys2Proof.Machine

/-- `in_ready = (rst = 0) and (ev_valid = 0 or ev_ready = 1)` (R122), combinational in `ev_ready`. -/
def State.inReady (s : State) : Bool :=
  !s.pins.rst && (!s.out.valid || s.pins.evReady)

/-- The byte on the input port is taken at this cycle's edge (R122). -/
def State.byteTaken (s : State) : Bool := s.pins.inValid && s.inReady

/-- The presented event is transferred at this cycle's edge (R125, log entry 15). -/
def State.eventTaken (s : State) : Bool := s.out.valid && s.pins.evReady

/-- The output ports of R120. -/
structure Outputs where
  inReady : Bool
  evValid : Bool
  evKind : BitVec 2
  evTs : Word
  evX : Short
  evY : Short
  evPol : Bool
  evSeal : Bool
  cmdTsReset : Bool
  stResync : Bool
  stDrop : Bool
  stMono : Bool
  stResyncCount : Word
  stDropCount : Word
  stMonoCount : Word
  stWrapOverflow : Word
  stResetPending : Bool
deriving DecidableEq, Repr

/-- What a test bench sees in one cycle (R120, R127): these ports and nothing else (60_exceptions.md R153). While `rst`
is high the strobe ports are 0 (70_reset_and_hazards.md R161, log entry 13). -/
def State.outputs (s : State) : Outputs :=
  { inReady := s.inReady
    evValid := s.out.valid
    evKind := s.out.ev.kind
    evTs := s.out.ev.ts
    evX := s.out.ev.x
    evY := s.out.ev.y
    evPol := s.out.ev.pol
    evSeal := s.out.ev.sealBit
    cmdTsReset := s.strobes.cmdTsReset && !s.pins.rst
    stResync := s.strobes.stResync && !s.pins.rst
    stDrop := s.strobes.stDrop && !s.pins.rst
    stMono := s.strobes.stMono && !s.pins.rst
    stResyncCount := s.cnt.resync
    stDropCount := s.cnt.drop
    stMonoCount := s.cnt.mono
    stWrapOverflow := s.tb.wrapOverflow
    stResetPending := s.resetPending }

end Sys2Proof.Machine
end

