-- ==== Sys2Proof/Machine/Edge.lean ====
section
/-! DEFINITION. One rising clock edge (43_ports_and_handshake.md R121 to R128; 70_reset_and_hazards.md R160, R161),
and placing one instruction's bits on the input ports. -/

namespace Sys2Proof.Machine

/-! ## Transactions (00_scope.md R14) -/

/-- The two input transactions. -/
inductive Transaction where
  /-- `Byte(b)`. -/
  | byte (b : Byte)
  /-- `ResetReq`. -/
  | resetReq
deriving DecidableEq, Repr

/-- The operation a transaction selects in a state (30_encoding.md R70). -/
def Transaction.select (t : Transaction) (s : State) : Instr :=
  match t with
  | .byte b => decodeByte s.phase s.fb0 s.fb1 s.fb2 b
  | .resetReq => .resetReq

/-- Take one transaction. -/
def transact (t : Transaction) (s : State) : Host.Outcome State Fault Refusal :=
  exec (t.select s) s

/-- Take transactions in order, each processed completely before the next (R14). -/
def transactAll : List Transaction → State → Host.Outcome State Fault Refusal
  | [], s => .next s
  | t :: ts, s =>
    match transact t s with
    | .next s' => transactAll ts s'
    | .fault r => .fault r
    | .refused r => .refused r

/-- The transactions of an edge: none while `rst` is high (R121); otherwise the request first, then the byte
(R123, R130). -/
def State.transactions (s : State) : List Transaction :=
  if s.pins.rst then []
  else (if s.pins.tsResetReq then [.resetReq] else []) ++
    (if s.byteTaken then [.byte s.pins.inData] else [])

/-! ## The edge -/

/-- What the edge does before its transactions: a transferred event leaves the output register (R125), and the
strobes of the cycle that ends fall (R126, R127). -/
def State.beginEdge (s : State) : State :=
  { s with out := { s.out with valid := s.out.valid && !s.eventTaken }, strobes := Strobes.low }

/-- Hardware reset at an edge with `rst = 1` (R121, R160): every register at its reset value. The parameters are
fixed (R34) and the input ports are the environment's. -/
def State.hardwareReset (s : State) : State :=
  { State.reset with params := s.params, pins := s.pins, inputs := s.inputs }

/-- The input levels once the schedule is used up (log entry 2): an untaken byte stays offered (R122), no new byte,
request or reset is driven, and the configuration and `ev_ready` hold their levels. -/
def State.restPins (s : State) : Pins :=
  { s.pins with rst := false, tsResetReq := false, inValid := s.pins.inValid && !s.byteTaken }

/-- The input levels of the next cycle (log entry 1). -/
def State.nextPins (s : State) : Pins := s.inputs.headD s.restPins

/-- The state after the registers have settled to `r`, with the input levels of the cycle after `s`'s. -/
def State.drive (s r : State) : State :=
  { r with pins := s.nextPins, inputs := s.inputs.tail }

/-- The edge's answer, from what its transactions answer. -/
def State.finish (s : State) (o : Host.Outcome State Fault Refusal) :
    Host.Outcome State Fault Refusal :=
  match o with
  | .next r => .next (s.drive r)
  | .fault r => .fault r
  | .refused r => .refused r

/-- One rising edge. -/
def clockEdge (s : State) : Host.Outcome State Fault Refusal :=
  if s.pins.rst then s.finish (.next s.hardwareReset)
  else s.finish (transactAll s.transactions s.beginEdge)

/-! ## Placing an instruction on the ports (log entry 8) -/

/-- Offer byte `b` so that this cycle's edge takes it, and nothing else (R122). -/
def State.offerByte (b : Byte) (s : State) : State :=
  { s with pins := { s.pins with
      rst := false, inValid := true, inData := b, tsResetReq := false,
      evReady := s.pins.evReady || s.out.valid } }

/-- Ask for one timestamp reset at this cycle's edge, and nothing else (R123). -/
def State.offerRequest (s : State) : State :=
  { s with pins := { s.pins with rst := false, inValid := false, tsResetReq := true } }

/-- The frame bytes before the last are held, the phase counts them, and the last byte is offered; no byte at all is
a request. A fifth byte and any after it are no part of an instruction and are left out. -/
def State.placeBytes (bytes : List Byte) (s : State) : State :=
  match bytes with
  | [] => s.offerRequest
  | [b] => (s.setPhase .scan).offerByte b
  | [b0, b] => ((s.setFb0 b0).setPhase .fetch1).offerByte b
  | [b0, b1, b] => (((s.setFb0 b0).setFb1 b1).setPhase .fetch2).offerByte b
  | b0 :: b1 :: b2 :: b :: _ =>
    ((((s.setFb0 b0).setFb1 b1).setFb2 b2).setPhase .fetch3).offerByte b

end Sys2Proof.Machine
end

