-- ==== Sys2Proof/Machine/Step.lean ====
section
/-! DEFINITION. One step is one rising clock edge (43_ports_and_handshake.md R121; log entry 1). -/

namespace Sys2Proof.Machine

/-- One step of the block: the rising edge that ends the present cycle. -/
def step (s : State) : Host.Outcome State Fault Refusal := clockEdge s

/-- `s` with the instruction of these bits as the one transaction of this cycle's edge (log entries 7 and 8). -/
def State.withFetchWord (s : State) (nbits w : Nat) : State :=
  s.placeBytes (tableBytes (nbits / 8) w)

end Sys2Proof.Machine
end

