-- ==== Sys2Proof/Machine/Sink.lean ====
section
/-! DEFINITION. The event sink, only as far as the spec fixes what an event means to it: the kind codes
(30_encoding.md R65, R67) and the seal marker (41_field_extractor.md R87, R98; 20_memory.md R49). It is no part of the
block (00_scope.md R5) and no part of State (log entry 18). -/

namespace Sys2Proof.Machine

/-- The kinds of R65 that are ever emitted. -/
inductive EventKind where
  | pixel
  | timestampWrap
  | timestampReset
deriving DecidableEq, Repr

/-- A kind's code on `ev_kind` (R65). -/
def EventKind.code : EventKind → BitVec 2
  | .pixel => 0
  | .timestampWrap => 1
  | .timestampReset => 2

/-- How a sink reads `ev_kind`: code 3 is reserved (R65, R67). -/
def kindOfCode (c : BitVec 2) : Option EventKind :=
  if c = 0 then some .pixel
  else if c = 1 then some .timestampWrap
  else if c = 2 then some .timestampReset
  else none

/-- A sink that only builds batches: the open one and the sealed ones, each oldest first. -/
structure Sink where
  openBatch : List Event
  sealedBatches : List (List Event)
deriving DecidableEq, Repr

/-- A sink takes one event (R87): append it to the open batch, then seal that batch if the event says so. The reserved
kind is refused (R67). -/
def Sink.append (e : Event) (k : Sink) : Host.Outcome Sink Fault Refusal :=
  match kindOfCode e.kind with
  | none => .refused .reservedEventKind
  | some _ =>
    let grown := k.openBatch ++ [e]
    if e.sealBit then .next ⟨[], k.sealedBatches ++ [grown]⟩ else .next ⟨grown, k.sealedBatches⟩

/-- A sink takes events in order. -/
def Sink.appendAll : List Event → Sink → Host.Outcome Sink Fault Refusal
  | [], k => .next k
  | e :: es, k =>
    match k.append e with
    | .next k' => Sink.appendAll es k'
    | .fault r => .fault r
    | .refused r => .refused r

end Sys2Proof.Machine
end

