-- ==== Sys2Proof/Machine/Trace.lean ====
section
/-! DEFINITION. Runs at the two levels of description: the transaction level on a whole stream (00_scope.md R14,
20_memory.md R54), and the cycle level edge by edge with what it shows on the ports (43_ports_and_handshake.md R130). -/

namespace Sys2Proof.Machine

/-- The registers of R20 other than the port registers: what R130 compares. -/
structure Registers where
  params : Config.Params
  phase : Phase
  fb0 : Byte
  fb1 : Byte
  fb2 : Byte
  resetPending : Bool
  tb : TimeBase
  cnt : Counters
deriving DecidableEq, Repr

/-- The registers of a state. -/
def State.registers (s : State) : Registers :=
  ⟨s.params, s.phase, s.fb0, s.fb1, s.fb2, s.resetPending, s.tb, s.cnt⟩

/-- `phase` as a number: how many bytes of the frame are held (R21). -/
def phaseCount : Phase → Nat
  | .scan => 0
  | .fetch1 => 1
  | .fetch2 => 2
  | .fetch3 => 3

/-- What a run sends out (R54): the events in order, how often the timestamp-reset command was raised, and the
conditions in order. -/
structure Sent where
  events : List Event
  commands : Nat
  conditions : List Condition
deriving DecidableEq, Repr

/-- Nothing sent. -/
def Sent.nothing : Sent := ⟨[], 0, []⟩

/-- What is sent first, then what is sent later. -/
def Sent.append (a b : Sent) : Sent :=
  ⟨a.events ++ b.events, a.commands + b.commands, a.conditions ++ b.conditions⟩

/-- The presented event, if there is one. -/
def State.presented (s : State) : List Event := if s.out.valid then [s.out.ev] else []

/-- What the strobes of a state report: commands and conditions. -/
def Strobes.sent (st : Strobes) (events : List Event) : Sent :=
  ⟨events, if st.cmdTsReset then 1 else 0, st.conditions⟩

/-! ## The transaction level -/

/-- One item of a stream: a transaction, with the configuration present when it is taken (R91). -/
structure StreamItem where
  txn : Transaction
  sizeX : Short
  sizeY : Short
deriving DecidableEq, Repr

/-- At the transaction level ports hold nothing between transactions (R33): the event of the transaction before has
left, the strobes are low, and the configuration is this transaction's (log entry 17). -/
def StreamItem.before (it : StreamItem) (s : State) : State :=
  { s with out := { s.out with valid := false }, strobes := Strobes.low
           pins := { s.pins with cfgSizeX := it.sizeX, cfgSizeY := it.sizeY } }

/-- The pure function of R54 from a stream to what it sends and the state it leaves. -/
def streamRun : List StreamItem → State → Sent × State
  | [], s => (Sent.nothing, s)
  | it :: rest, s =>
    match transact it.txn (it.before s) with
    | .next s' =>
      let later := streamRun rest s'
      ((s'.strobes.sent s'.presented).append later.1, later.2)
    | .fault _ => (Sent.nothing, s)
    | .refused _ => (Sent.nothing, s)

/-- The operations a stream selects, in order (R70). -/
def streamInstrs : List StreamItem → State → List Instr
  | [], _ => []
  | it :: rest, s =>
    match transact it.txn (it.before s) with
    | .next s' => it.txn.select s :: streamInstrs rest s'
    | .fault _ => []
    | .refused _ => []

/-- A byte stream under one configuration, as a list of items. -/
def byteStream (sizeX sizeY : Short) (bytes : List Byte) : List StreamItem :=
  bytes.map fun b => ⟨.byte b, sizeX, sizeY⟩

/-! ## The cycle level -/

/-- The items an edge takes (R130). -/
def State.edgeItems (s : State) : List StreamItem :=
  s.transactions.map fun t => ⟨t, s.pins.cfgSizeX, s.pins.cfgSizeY⟩

/-- The state `n` edges later. -/
def cycles : Nat → State → State
  | 0, s => s
  | n + 1, s =>
    match step s with
    | .next t => cycles n t
    | .fault _ => s
    | .refused _ => s

/-- The items taken at the first `n` edges, in order (R130). -/
def itemsTaken : Nat → State → List StreamItem
  | 0, _ => []
  | n + 1, s => s.edgeItems ++ itemsTaken n (cycles 1 s)

/-- What the first `n` edges send: the events transferred at them (R125), and the commands and conditions they raised, read
from the strobe registers in the cycle after each. DESIGN CHOICE (log entry 19): a command or condition counts as sent when
its edge raised it, also where the one cycle of its strobe has `rst = 1` and the port shows 0 (log entry 13). -/
def portsSent : Nat → State → Sent
  | 0, _ => Sent.nothing
  | n + 1, s =>
    ((cycles 1 s).strobes.sent (if s.eventTaken then [s.out.ev] else [])).append
      (portsSent n (cycles 1 s))

/-- `rst` is low in each of the first `n` cycles. -/
def resetLow : Nat → State → Bool
  | 0, _ => true
  | n + 1, s => !s.pins.rst && resetLow n (cycles 1 s)

/-- Counting operations of a stream. -/
def isSkip : Instr → Bool
  | .skip _ => true
  | .sync _ | .collect1 _ | .collect2 _ | .frame _ _ _ _ | .resetReq => false

/-- Counting completed frames of a stream. -/
def isFrame : Instr → Bool
  | .frame _ _ _ _ => true
  | .skip _ | .sync _ | .collect1 _ | .collect2 _ | .resetReq => false

/-- Counting bytes of a stream. -/
def StreamItem.isByte (it : StreamItem) : Bool :=
  match it.txn with
  | .byte _ => true
  | .resetReq => false

/-- The byte of an item, if it is one. -/
def StreamItem.byte? (it : StreamItem) : Option Byte :=
  match it.txn with
  | .byte b => some b
  | .resetReq => none

/-- The bytes of the frame in progress, in arrival order (R21, R22). -/
def State.heldBytes (s : State) : List Byte := [s.fb0, s.fb1, s.fb2].take (phaseCount s.phase)

/-! ## The byte source's obligation (R122) -/

/-- The source changes or drops, in the next cycle, a byte that is offered and not taken in this one
(93_implementation_defined.md section 2). -/
def State.byteWithdrawn (s : State) : Bool :=
  s.pins.inValid && !s.byteTaken &&
    !(s.nextPins.inValid && s.nextPins.inData == s.pins.inData)

/-- One edge of a run that is refused when the byte source breaks its obligation (log entry 9). -/
def checkedStep (s : State) : Host.Outcome State Fault Refusal :=
  if s.byteWithdrawn then .refused .byteWithdrawn else step s

end Sys2Proof.Machine
end

