-- ==== Sys2Proof/Safety.lean ====
section
/-! DEFINITION. What holds of every state a run can reach (10_state.md R36; 30_encoding.md R67), as predicates that
claims are stated with. -/

namespace Sys2Proof.Machine

/-- R36, and what makes it inductive: `wrap_add` is a multiple of 0x10000 at most WRAP_CEILING + 1 - 0x10000,
`current` and `last` lie below `wrap_add + 0x10000`, `current` not below `wrap_add`, and `last_short` is the short
timestamp of `current`, or 0. -/
abbrev TimeBase.Ok (p : Config.Params) (tb : TimeBase) : Prop :=
  tb.wrapAdd.toNat % tsWrapAdd = 0 ∧
  tb.wrapAdd.toNat + tsWrapAdd ≤ ceilingNat p + 1 ∧
  tb.wrapAdd.toNat ≤ tb.current.toNat ∧
  tb.current.toNat < tb.wrapAdd.toNat + tsWrapAdd ∧
  tb.last.toNat < tb.wrapAdd.toNat + tsWrapAdd ∧
  (tb.lastShort = 0 ∨ tb.wrapAdd.toNat + tb.lastShort.toNat = tb.current.toNat)

/-- R66 and R67: the payload is one of the three that are emitted, or the reset payload, which is a PIXEL's in form. -/
abbrev Event.Legal (p : Config.Params) (e : Event) : Prop :=
  (e.kind = 0 ∧ e.sealBit = false ∧ e.x.toNat < 128 ∧ e.y.toNat < 128) ∨
  (e.kind = 1 ∧ e = wrapEvent wrapEventTs) ∨
  (e.kind = 2 ∧ e = resetEvent p.resetEventTs)

/-- The frame in progress began with a sync byte (30_encoding.md R57). -/
abbrev State.SyncHeld (s : State) : Prop :=
  s.phase ≠ .scan → syncBit s.fb0 = true

/-- The table of 70_reset_and_hazards.md R160: every state element at its reset value. -/
abbrev State.AtReset (s : State) : Prop :=
  s.phase = .scan ∧ s.fb0 = 0x00#8 ∧ s.fb1 = 0x00#8 ∧ s.fb2 = 0x00#8 ∧ s.resetPending = false ∧
  s.tb.wrapOverflow = 0 ∧ s.tb.wrapAdd = 0 ∧ s.tb.lastShort = 0 ∧ s.tb.last = 0 ∧ s.tb.current = 0 ∧
  s.cnt.resync = 0 ∧ s.cnt.drop = 0 ∧ s.cnt.mono = 0 ∧
  s.out.valid = false ∧ s.out.ev.kind = 0 ∧ s.out.ev.ts = 0 ∧ s.out.ev.x = 0 ∧ s.out.ev.y = 0 ∧
  s.out.ev.pol = false ∧ s.out.ev.sealBit = false ∧
  s.strobes.cmdTsReset = false ∧ s.strobes.stResync = false ∧ s.strobes.stDrop = false ∧
  s.strobes.stMono = false

/-- The invariant of the block. -/
abbrev State.Inv (s : State) : Prop :=
  s.tb.Ok s.params ∧ s.out.ev.Legal s.params ∧ s.SyncHeld

end Sys2Proof.Machine
end

