-- ==== Sys2Proof/Certificates/Slice0/Obligations.lean ====
section
/-! DEFINITION. The statements for the provers. Each docstring names the sentence of spec/ it formalises. -/

open Sys2Proof Sys2Proof.Machine

/-! ## Reset and build parameters -/

/-- 70_reset_and_hazards.md R160: an edge with `rst = 1` leaves every state element at the value of the table,
whatever the state was; `State.reset` has the same values. The parameters stay. -/
def Obligations.ResetLeavesTheSpecsValues : Prop :=
  State.reset.AtReset ∧
  ∀ s : State, s.pins.rst = true →
    ∃ t, step s = .next t ∧ t.AtReset ∧ t.params = s.params

/-- From 70_reset_and_hazards.md R161: while `rst = 1` the block is not ready, takes no transaction, shows no strobe and
ignores every other input; one edge suffices, and the first edge with `rst = 0` can take a byte and a request. That the
strobe ports are 0 in EVERY cycle with `rst = 1`, the first one after an edge that raised a strobe among them, is the
model's reading of R161 against R126 and R127 (log entry 13). -/
def Obligations.NothingIsTakenDuringReset : Prop :=
  (∀ s : State, s.pins.rst = true →
    s.inReady = false ∧ s.transactions = [] ∧
    s.outputs.inReady = false ∧ s.outputs.cmdTsReset = false ∧ s.outputs.stResync = false ∧
    s.outputs.stDrop = false ∧ s.outputs.stMono = false) ∧
  (∀ (s : State) (p : Pins), s.pins.rst = true → p.rst = true →
    ∃ t u, step s = .next t ∧ step { s with pins := p } = .next u ∧
      u.registers = t.registers ∧ u.out = t.out ∧ u.strobes = t.strobes) ∧
  (∀ s t : State, s.pins.rst = true → step s = .next t → t.pins.rst = false →
    (t.pins.inValid = true → Transaction.byte t.pins.inData ∈ t.transactions) ∧
    (t.pins.tsResetReq = true → Transaction.resetReq ∈ t.transactions))

/-- 00_scope.md R8 and R10: exactly two words are legal as WRAP_CEILING, each stands for itself in the big-wrap test,
any other is refused; RESET_EVENT_TS may be any word; the defaults of both are 0x7FFFFFFF. -/
def Obligations.OnlyTwoCeilingsAreLegal : Prop :=
  State.build 0x7FFFFFFF 0x7FFFFFFF = .next State.reset ∧
  ∀ v r : Word,
    if v = 0x7FFFFFFF#32 ∨ v = 0xFFFFFFFF#32 then
      ∃ s, State.build v r = .next s ∧ s.AtReset ∧ ceilingNat s.params = v.toNat ∧
        s.params.resetEventTs = r
    else State.build v r = .refused (.illegalWrapCeiling v)

/-! ## Encoding -/

/-- 40_frame_synchronizer.md R75: the phase selects the operation, at phase 0 by bit 7 of the byte; and no operation
but FRAME reads `reset_pending`, TimeBaseState or the configuration. -/
def Obligations.SynchronizerSelectsByPhase : Prop :=
  (∀ (s : State) (b : Byte),
    (Transaction.byte b).select s =
      match s.phase with
      | .scan => if 128 ≤ b.toNat then .sync b else .skip b
      | .fetch1 => .collect1 b
      | .fetch2 => .collect2 b
      | .fetch3 => decodeFrame s.fb0 s.fb1 s.fb2 b) ∧
  (∀ (i : Instr) (s : State) (rp : Bool) (tb : TimeBase) (cx cy : Short),
    isFrame i = false → i ≠ .resetReq →
    ∃ r, exec i s = .next r ∧
      exec i { s with resetPending := rp, tb := tb,
                      pins := { s.pins with cfgSizeX := cx, cfgSizeY := cy } } =
        .next { r with resetPending := rp, tb := tb,
                       pins := { r.pins with cfgSizeX := cx, cfgSizeY := cy } })

/-- 30_encoding.md R57 to R60 and 20_memory.md R43: the fields of a completed frame, in arithmetic. -/
def Obligations.FrameFieldsOfFourBytes : Prop :=
  ∀ b0 b1 b2 b3 : Byte, ∃ y x pol t,
    decodeByte .fetch3 b0 b1 b2 b3 = .frame y x pol t ∧
    y.toNat = b0.toNat % 128 ∧ x.toNat = b1.toNat % 128 ∧
    (pol = true ↔ 128 ≤ b1.toNat) ∧ t.toNat = 256 * b2.toNat + b3.toNat ∧
    (zextAddress y).toNat = b0.toNat % 128 ∧ (zextAddress x).toNat = b1.toNat % 128

/-- 30_encoding.md section 2, the pattern `1yyyyyyy pxxxxxxx tttttttt tttttttt`: how the 32-bit word W decodes, and that
a word with bit 31 clear is no RawFrame. -/
def Obligations.RawFrameWordLayout : Prop :=
  ∀ w : Nat, w < 2 ^ 32 →
    decodeTableWord 32 w =
      if 2 ^ 31 ≤ w then
        some (.frame (BitVec.ofNat 7 (w / 2 ^ 24)) (BitVec.ofNat 7 (w / 2 ^ 16))
          (decide (w / 2 ^ 23 % 2 = 1)) (BitVec.ofNat 16 w))
      else none

/-- Decoding an encoded well-formed instruction gives it back, with every operand, as bytes and as a table word. The frame
bytes before a COLLECT byte in these forms are the model's choice (log entry 7). -/
def Obligations.DecodeOfEncodeIsTheInstruction : Prop :=
  ∀ i : Instr, i.wellFormed = true →
    decodeStream (encode i) = .ok i ∧
    decodeTableWord (encodeTableWord i).1 (encodeTableWord i).2 = some i

/-- Every word of a RawFrame is some FRAME's, and encodes back to itself: no bit of the 31 is dropped
(30_encoding.md section 3). -/
def Obligations.EveryFrameWordReencodes : Prop :=
  ∀ w : Nat, 2 ^ 31 ≤ w → w < 2 ^ 32 →
    ∃ y x pol t, decodeTableWord 32 w = some (.frame y x pol t) ∧
      encodeTableWord (.frame y x pol t) = (32, w)

/-- The bytes of an encoded instruction, taken from phase 0, make the block select that instruction with the last of
them. The frame bytes before a COLLECT byte are the model's choice (log entry 7). -/
def Obligations.EncodedBytesSelectTheInstruction : Prop :=
  ∀ (i : Instr) (s : State) (sx sy : Short), i.wellFormed = true → i ≠ .resetReq →
    s.phase = .scan →
    (streamInstrs (byteStream sx sy (encode i)) s).getLast? = some i

/-- Words written out from 30_encoding.md section 2 and 95_test_vectors.md (V40, V41) decode to what they stand for. The
bytes are the spec's. That COLLECT1's byte is the last of 16 bits and COLLECT2's the last of 24, the frame bytes before it
included, is the model's choice (log entry 7): the opcode table gives these rows 8 bits at their phase. -/
def Obligations.WrittenWordsDecode : Prop :=
  decodeTableWord 8 0b00000101 = some (.skip 0x05#8) ∧
  decodeTableWord 8 0b10001010 = some (.sync 0x8A#8) ∧
  decodeTableWord 16 0b1000101010010011 = some (.collect1 0x93#8) ∧
  decodeTableWord 24 0b100010101001001100000001 = some (.collect2 0x01#8) ∧
  decodeTableWord 32 0b10001010100100110000000100000000 =
    some (.frame 10#7 19#7 true 256#16) ∧
  decodeTableWord 32 0b10000000111111111111111111111111 =
    some (.frame 0#7 127#7 true 65535#16)

/-! ## A step runs the decoded instruction -/

/-- One edge with `rst = 0` runs what it takes on the state with the transferred event gone and the strobes down, then
moves the input levels: one byte, one request, the request and then the byte, or nothing. -/
def Obligations.StepRunsTheDecodedInstruction : Prop :=
  ∀ s : State, s.pins.rst = false →
    (s.pins.tsResetReq = false → s.byteTaken = true →
      step s = s.finish (exec (decodeByte s.phase s.fb0 s.fb1 s.fb2 s.pins.inData) s.beginEdge)) ∧
    (s.pins.tsResetReq = true → s.byteTaken = false →
      step s = s.finish (exec .resetReq s.beginEdge)) ∧
    (s.pins.tsResetReq = true → s.byteTaken = true →
      ∃ q, exec .resetReq s.beginEdge = .next q ∧
        step s = s.finish (exec (decodeByte s.phase s.fb0 s.fb1 s.fb2 s.pins.inData) q)) ∧
    (s.pins.tsResetReq = false → s.byteTaken = false →
      step s = .next (s.drive s.beginEdge))

/-- The model's own (log entry 8): an instruction placed by `withFetchWord` is the one transaction of the very next
step. -/
def Obligations.PlacedWordIsRun : Prop :=
  ∀ (nbits w : Nat) (i : Instr) (s : State), decodeTableWord nbits w = some i →
    step (s.withFetchWord nbits w) =
      (s.withFetchWord nbits w).finish (exec i (s.withFetchWord nbits w).beginEdge)

/-- 40_frame_synchronizer.md R83: no byte in any phase faults, stalls or is refused; the only stall is the output
backpressure. Every edge of every state has a next state. -/
def Obligations.StepNeverStops : Prop :=
  (∀ (i : Instr) (s : State), ∃ r, exec i s = .next r) ∧
  (∀ s : State, ∃ t, step s = .next t) ∧
  (∀ s : State, s.pins.rst = false → s.pins.inValid = true →
    (s.byteTaken = false ↔ s.out.valid = true ∧ s.pins.evReady = false))

/-! ## The operations -/

/-- 40_frame_synchronizer.md R76: SKIP counts and pulses RESYNC and changes nothing else; a run of n non-sync bytes
raises RESYNC n times and does nothing else. -/
def Obligations.SkipRaisesOneResync : Prop :=
  (∀ (b : Byte) (s : State), (Instr.skip b).wellFormed = true →
    exec (.skip b) s = .next { s with
      cnt := { s.cnt with resync := s.cnt.resync + 1 }
      strobes := { s.strobes with stResync := true } }) ∧
  (∀ (bytes : List Byte) (s : State) (sx sy : Short), s.phase = .scan →
    (∀ b ∈ bytes, syncBit b = false) →
    (streamRun (byteStream sx sy bytes) s).1 =
      ⟨[], 0, List.replicate bytes.length .resync⟩ ∧
    (streamRun (byteStream sx sy bytes) s).2.registers =
      { s.registers with
        cnt := { s.cnt with resync := s.cnt.resync + BitVec.ofNat 32 bytes.length } })

/-- 40_frame_synchronizer.md R77: SYNC. -/
def Obligations.SyncHoldsByteZero : Prop :=
  ∀ (b : Byte) (s : State), (Instr.sync b).wellFormed = true →
    exec (.sync b) s = .next { s with fb0 := b, phase := .fetch1 }

/-- 40_frame_synchronizer.md R78: COLLECT1 and COLLECT2, for any byte. -/
def Obligations.CollectHoldsBytesOneAndTwo : Prop :=
  ∀ (b : Byte) (s : State),
    exec (.collect1 b) s = .next { s with fb1 := b, phase := .fetch2 } ∧
    exec (.collect2 b) s = .next { s with fb2 := b, phase := .fetch3 }

/-- 42_timestamp_reconstructor.md R103: a request sets the latch and nothing else; a second changes nothing. -/
def Obligations.RequestSetsTheLatch : Prop :=
  ∀ s : State,
    exec .resetReq s = .next { s with resetPending := true } ∧
    (s.resetPending = true → exec .resetReq s = .next s)

/-- 42_timestamp_reconstructor.md R101: a frame that completes with a request pending. The frame's own fields reach
nothing; the next frame's timestamp is its own short timestamp. -/
def Obligations.ResetFrame : Prop :=
  ∀ (y x : Address) (pol : Bool) (t : Short) (s : State), s.resetPending = true →
    ∃ r, exec (.frame y x pol t) s = .next r ∧
      r = { s with
        phase := .scan
        resetPending := false
        tb := ⟨0, 0, 0, 0, 0⟩
        strobes := { s.strobes with cmdTsReset := true }
        out := ⟨true, ⟨2, s.params.resetEventTs, 0, 0, false, true⟩⟩ } ∧
      ∀ (y' x' : Address) (pol' : Bool) (t' : Short),
        ∃ q, exec (.frame y' x' pol' t') r = .next q ∧ q.tb.current.toNat = t'.toNat ∧
          q.tb.lastShort = t' ∧ q.tb.wrapAdd = 0

/-- 42_timestamp_reconstructor.md R105: the big wrap, and at which `wrap_add` it happens. -/
def Obligations.BigWrapFrame : Prop :=
  (∀ (y x : Address) (pol : Bool) (t : Short) (s : State), s.resetPending = false →
    t.toNat < s.tb.lastShort.toNat → ceilingNat s.params < s.tb.wrapAdd.toNat + 65536 →
    exec (.frame y x pol t) s = .next { s with
      phase := .scan
      tb := ⟨s.tb.wrapOverflow + 1, 0, 0, 0, 0⟩
      out := ⟨true, ⟨1, 0x7FFFFFFF#32, 0, 0, false, true⟩⟩ }) ∧
  (∀ s : State, s.Inv →
    (ceilingNat s.params < s.tb.wrapAdd.toNat + 65536 ↔
      s.tb.wrapAdd = match s.params.wrapCeiling with
        | .signed => 0x7FFF0000#32
        | .unsigned => 0xFFFF0000#32))

/-- 41_field_extractor.md R88 to R90, 42_timestamp_reconstructor.md R104, R108 and R110: a frame that is neither RESET nor
WRAP, whole: TimeBaseState with and without a normal wrap, MONO_WARN, and a PixelEvent or a drop. -/
def Obligations.TrackedFrame : Prop :=
  ∀ (y x : Address) (pol : Bool) (t : Short) (s : State), s.resetPending = false →
    ¬(t.toNat < s.tb.lastShort.toNat ∧ ceilingNat s.params < s.tb.wrapAdd.toNat + 65536) →
    let add := if t.toNat < s.tb.lastShort.toNat then s.tb.wrapAdd + 0x10000#32 else s.tb.wrapAdd
    let short := if t.toNat < s.tb.lastShort.toNat then 0#16 else t
    let now := add + BitVec.ofNat 32 t.toNat
    let warn := decide (now.toNat < s.tb.current.toNat)
    let inside := decide (x.toNat < s.pins.cfgSizeX.toNat ∧ y.toNat < s.pins.cfgSizeY.toNat)
    exec (.frame y x pol t) s = .next { s with
      phase := .scan
      tb := ⟨s.tb.wrapOverflow, add, short, s.tb.current, now⟩
      cnt := { s.cnt with
        mono := if warn then s.cnt.mono + 1 else s.cnt.mono
        drop := if inside then s.cnt.drop else s.cnt.drop + 1 }
      strobes := { s.strobes with
        stMono := s.strobes.stMono || warn
        stDrop := s.strobes.stDrop || !inside }
      out := if inside then
          ⟨true, ⟨0, now, BitVec.ofNat 16 x.toNat, BitVec.ofNat 16 y.toNat, pol, false⟩⟩
        else s.out }

/-- 30_encoding.md R66 and R72: which of the four outcomes a FRAME has, in order of priority, and the payload of each
event. -/
def Obligations.FrameOutcomesAndPayloads : Prop :=
  ∀ (y x : Address) (pol : Bool) (t : Short) (s : State),
    ∃ r, exec (.frame y x pol t) s = .next r ∧
      if s.resetPending then
        r.out = ⟨true, { kind := 2, ts := s.params.resetEventTs, x := 0, y := 0, pol := false, sealBit := true }⟩
      else if t.toNat < s.tb.lastShort.toNat ∧ ceilingNat s.params < s.tb.wrapAdd.toNat + 65536 then
        r.out = ⟨true, { kind := 1, ts := 0x7FFFFFFF#32, x := 0, y := 0, pol := false, sealBit := true }⟩
      else if x.toNat < s.pins.cfgSizeX.toNat ∧ y.toNat < s.pins.cfgSizeY.toNat then
        r.out.valid = true ∧ r.out.ev.kind = 0 ∧ r.out.ev.ts = r.tb.current ∧
        r.out.ev.x.toNat = x.toNat ∧ r.out.ev.y.toNat = y.toNat ∧ r.out.ev.pol = pol ∧
        r.out.ev.sealBit = false
      else r.out = s.out

/-- 41_field_extractor.md R86: what a frame does to TimeBaseState, to the request latch, to MONO_WARN and to the command
depends on its short timestamp only, not on its coordinates, polarity or the configuration. -/
def Obligations.AdvanceIgnoresTheRangeCheck : Prop :=
  ∀ (y x y' x' : Address) (pol pol' : Bool) (t : Short) (s : State) (cx cy : Short),
    ∃ r r', exec (.frame y x pol t) s = .next r ∧
      exec (.frame y' x' pol' t)
        { s with pins := { s.pins with cfgSizeX := cx, cfgSizeY := cy } } = .next r' ∧
      r'.tb = r.tb ∧ r'.resetPending = r.resetPending ∧ r'.cnt.mono = r.cnt.mono ∧
      r'.strobes.stMono = r.strobes.stMono ∧ r'.strobes.cmdTsReset = r.strobes.cmdTsReset

/-- 10_state.md section 7, the ownership table: which operations can change which registers, row by row, each strobe
included. -/
def Obligations.EachRegisterHasItsWriters : Prop :=
  ∀ (i : Instr) (s r : State), exec i s = .next r →
    r.params = s.params ∧ r.pins = s.pins ∧ r.inputs = s.inputs ∧
    (r.phase ≠ s.phase → isSkip i = false ∧ i ≠ .resetReq) ∧
    (r.fb0 ≠ s.fb0 → ∃ b, i = .sync b) ∧
    (r.fb1 ≠ s.fb1 → ∃ b, i = .collect1 b) ∧
    (r.fb2 ≠ s.fb2 → ∃ b, i = .collect2 b) ∧
    (s.resetPending = false → r.resetPending = true → i = .resetReq) ∧
    (s.resetPending = true → r.resetPending = false → isFrame i = true) ∧
    (r.tb ≠ s.tb → isFrame i = true) ∧
    (r.cnt.resync ≠ s.cnt.resync → isSkip i = true) ∧
    (r.cnt.drop ≠ s.cnt.drop → isFrame i = true) ∧
    (r.cnt.mono ≠ s.cnt.mono → isFrame i = true) ∧
    (r.out ≠ s.out → isFrame i = true) ∧
    (r.strobes.cmdTsReset ≠ s.strobes.cmdTsReset → isFrame i = true ∧ s.resetPending = true) ∧
    (r.strobes.stResync ≠ s.strobes.stResync → isSkip i = true) ∧
    (r.strobes.stDrop ≠ s.strobes.stDrop → isFrame i = true ∧ s.resetPending = false) ∧
    (r.strobes.stMono ≠ s.strobes.stMono → isFrame i = true ∧ s.resetPending = false)

/-! ## The time base -/

/-- 42_timestamp_reconstructor.md, normal wrap: from a reachable time base `wrap_add` grows exactly, `last_short` becomes
0, and no MONO_WARN is raised. -/
def Obligations.NormalWrapNeverWarns : Prop :=
  ∀ (y x : Address) (pol : Bool) (t : Short) (s : State), s.Inv → s.resetPending = false →
    t.toNat < s.tb.lastShort.toNat → s.tb.wrapAdd.toNat + 65536 ≤ ceilingNat s.params →
    ∃ r, exec (.frame y x pol t) s = .next r ∧
      r.tb.wrapAdd.toNat = s.tb.wrapAdd.toNat + 65536 ∧ r.tb.lastShort = 0 ∧
      r.tb.last = s.tb.current ∧ r.tb.current.toNat = s.tb.wrapAdd.toNat + 65536 + t.toNat ∧
      s.tb.current.toNat < r.tb.current.toNat ∧ r.cnt.mono = s.cnt.mono ∧
      r.strobes.stMono = s.strobes.stMono

/-- 60_exceptions.md section 1: of two frames in a row, the second raises MONO_WARN exactly when the first is a normal
wrap and the second's short timestamp is below the first's. -/
def Obligations.MonoWarnOnlyAfterANormalWrap : Prop :=
  ∀ (y x y' x' : Address) (pol pol' : Bool) (t t' : Short) (s r q : State), s.Inv →
    exec (.frame y x pol t) s = .next r → exec (.frame y' x' pol' t') r = .next q →
    (q.cnt.mono ≠ r.cnt.mono ↔
      s.resetPending = false ∧ t.toNat < s.tb.lastShort.toNat ∧
      s.tb.wrapAdd.toNat + 65536 ≤ ceilingNat s.params ∧ t'.toNat < t.toNat)

/-- 42_timestamp_reconstructor.md R112: two consecutive frames of one epoch with the same short timestamp have the same
timestamp and raise nothing. -/
def Obligations.EqualTimestampsRaiseNothing : Prop :=
  ∀ (y x y' x' : Address) (pol pol' : Bool) (t : Short) (s r q : State), s.resetPending = false →
    ¬(t.toNat < s.tb.lastShort.toNat ∧ ceilingNat s.params < s.tb.wrapAdd.toNat + 65536) →
    exec (.frame y x pol t) s = .next r → exec (.frame y' x' pol' t) r = .next q →
    q.tb.current = r.tb.current ∧ q.tb.last = r.tb.current ∧ q.cnt.mono = r.cnt.mono ∧
    q.strobes.stMono = r.strobes.stMono

/-- 42_timestamp_reconstructor.md R117: the source's worked example, from any state whose time base is that of hardware
reset. -/
def Obligations.SourceWrapExample : Prop :=
  ∀ (s : State) (y x : Address) (pol : Bool), s.resetPending = false → s.tb = ⟨0, 0, 0, 0, 0⟩ →
    ∃ a b c, exec (.frame y x pol 65530#16) s = .next a ∧ exec (.frame y x pol 2#16) a = .next b ∧
      exec (.frame y x pol 100#16) b = .next c ∧
      a.tb.current = 65530#32 ∧ b.tb.current = 65538#32 ∧ c.tb.current = 65636#32 ∧
      c.cnt.mono = s.cnt.mono

/-- 42_timestamp_reconstructor.md, the wrap quirks, for any falling short timestamps and not one example, from the start of
any epoch, also one that a big wrap began (`wrap_overflow` is any word): after a wrap the next lower frame steps back and
warns, and the one below it is taken as a second wrap. -/
def Obligations.FallingTimestampsWrapTwice : Prop :=
  ∀ (s : State) (wo : Word) (y x : Address) (pol : Bool) (ta tb tc td : Short), s.resetPending = false →
    s.tb = ⟨wo, 0, 0, 0, 0⟩ → tb < ta → tc < tb → td < tc →
    ∃ a b c d, exec (.frame y x pol ta) s = .next a ∧ exec (.frame y x pol tb) a = .next b ∧
      exec (.frame y x pol tc) b = .next c ∧ exec (.frame y x pol td) c = .next d ∧
      a.tb.current.toNat = ta.toNat ∧ b.tb.current.toNat = 65536 + tb.toNat ∧
      c.tb.current.toNat = 65536 + tc.toNat ∧ d.tb.current.toNat = 131072 + td.toNat ∧
      c.cnt.mono = s.cnt.mono + 1 ∧ d.cnt.mono = c.cnt.mono ∧ d.tb.wrapOverflow = wo

/-- 42_timestamp_reconstructor.md, epoch boundaries: after hardware reset, a reset frame or a big-wrap frame the next
frame that tracks time has its own short timestamp, with no wrap and no MONO_WARN. -/
def Obligations.EpochStartsAtZero : Prop :=
  (∀ (y x y' x' : Address) (pol pol' : Bool) (t t' : Short) (s r : State),
    exec (.frame y x pol t) s = .next r →
    (s.resetPending = true ∨
      (t.toNat < s.tb.lastShort.toNat ∧ ceilingNat s.params < s.tb.wrapAdd.toNat + 65536)) →
    ∃ q, exec (.frame y' x' pol' t') r = .next q ∧ q.tb.current.toNat = t'.toNat ∧
      q.tb.wrapAdd = 0 ∧ q.tb.wrapOverflow = r.tb.wrapOverflow ∧ q.cnt.mono = r.cnt.mono) ∧
  (∀ (y' x' : Address) (pol' : Bool) (t' : Short) (s r : State), s.pins.rst = true →
    step s = .next r →
    ∃ q, exec (.frame y' x' pol' t') r = .next q ∧ q.tb.current.toNat = t'.toNat ∧
      q.tb.wrapAdd = 0 ∧ q.cnt.mono = 0)

/-- 42_timestamp_reconstructor.md R118: outside hardware reset, TimeBaseState changes only at an edge that completes a
frame, and the latch moreover only by a request. -/
def Obligations.TimeMovesOnlyWithFrames : Prop :=
  ∀ s t : State, s.pins.rst = false → step s = .next t →
    ¬(s.byteTaken = true ∧ s.phase = .fetch3) →
    t.tb = s.tb ∧ t.resetPending = (s.resetPending || s.pins.tsResetReq)

/-! ## Invariant -/

/-- The reset state, and the reset state of every instance that can be built, has the invariant. -/
def Obligations.InvHoldsAfterReset : Prop :=
  State.reset.Inv ∧ ∀ (v r : Word) (s : State), State.build v r = .next s → s.Inv

/-- Every edge keeps the invariant (10_state.md section 7; 30_encoding.md section 4), whatever the inputs. -/
def Obligations.StepKeepsInv : Prop :=
  ∀ s t : State, s.Inv → step s = .next t → t.Inv

/-- 10_state.md section 7: under the invariant `current` and `last` are at most WRAP_CEILING, the sum of `Advance` never
wraps 32 bits, and `wrap_add` is at most 0x7FFF0000 or 0xFFFF0000. -/
def Obligations.TimestampsStayUnderTheCeiling : Prop :=
  ∀ s : State, s.Inv →
    s.tb.current.toNat ≤ ceilingNat s.params ∧ s.tb.last.toNat ≤ ceilingNat s.params ∧
    s.tb.wrapAdd.toNat % 65536 = 0 ∧
    (s.params.wrapCeiling = .signed → s.tb.wrapAdd.toNat ≤ 0x7FFF0000) ∧
    (s.params.wrapCeiling = .unsigned → s.tb.wrapAdd.toNat ≤ 0xFFFF0000) ∧
    ∀ (y x : Address) (pol : Bool) (t : Short), s.resetPending = false →
      ¬(t.toNat < s.tb.lastShort.toNat ∧ ceilingNat s.params < s.tb.wrapAdd.toNat + 65536) →
      ∃ r, exec (.frame y x pol t) s = .next r ∧
        r.tb.current.toNat = r.tb.wrapAdd.toNat + t.toNat ∧
        r.tb.current.toNat ≤ ceilingNat s.params

/-! ## Ports -/

/-- 43_ports_and_handshake.md R123: a request is never refused, is taken before the byte of the same edge, resets the
frame that completes at that edge, and otherwise stays pending. -/
def Obligations.RequestIsTakenBeforeTheByte : Prop :=
  ∀ s : State, s.pins.rst = false → s.pins.tsResetReq = true →
    ∃ t, step s = .next t ∧ s.transactions.head? = some .resetReq ∧
      (¬(s.byteTaken = true ∧ s.phase = .fetch3) → t.resetPending = true) ∧
      (s.byteTaken = true → s.phase = .fetch3 →
        t.resetPending = false ∧ t.phase = .scan ∧ t.tb = ⟨0, 0, 0, 0, 0⟩ ∧
        t.out = ⟨true, resetEvent s.params.resetEventTs⟩ ∧ t.strobes.cmdTsReset = true ∧
        t.cnt = s.cnt)

/-- 43_ports_and_handshake.md R122: when the block is ready, when it takes a byte, and that nothing of a byte that is not
taken is used. -/
def Obligations.ByteHandshake : Prop :=
  (∀ s : State,
    (s.inReady = true ↔ s.pins.rst = false ∧ (s.out.valid = false ∨ s.pins.evReady = true)) ∧
    (Transaction.byte s.pins.inData ∈ s.transactions ↔
      s.pins.rst = false ∧ s.pins.inValid = true ∧ s.inReady = true)) ∧
  (∀ (s : State) (b : Byte), s.byteTaken = false →
    ∃ t u, step s = .next t ∧
      step { s with pins := { s.pins with inData := b } } = .next u ∧
      u.registers = t.registers ∧ u.out = t.out ∧ u.strobes = t.strobes ∧
      (s.pins.rst = false → s.pins.tsResetReq = false → t.registers = s.registers))

/-- 93_implementation_defined.md section 2, the byte source's side of R122: a run in which an offered and untaken byte is
changed or dropped is refused. That only a checked run refuses it is the model's choice (log entry 9). -/
def Obligations.WithdrawnByteIsRefused : Prop :=
  ∀ s : State, s.pins.inValid = true → s.inReady = false →
    if s.nextPins.inValid = true ∧ s.nextPins.inData = s.pins.inData then
      ∃ t, checkedStep s = .next t ∧ step s = .next t
    else checkedStep s = .refused .byteWithdrawn

/-- 43_ports_and_handshake.md R124: a presented event is either the one that still waits, or one just loaded by a frame
completed at this edge, and then the register was free or being freed. -/
def Obligations.NoEventIsOverwritten : Prop :=
  ∀ s t : State, s.pins.rst = false → step s = .next t →
    (s.byteTaken = true → s.beginEdge.out.valid = false) ∧
    (t.out.valid = true →
      (s.out.valid = true ∧ s.pins.evReady = false ∧ t.out = s.out) ∨
      (s.byteTaken = true ∧ s.phase = .fetch3 ∧ (s.out.valid = false ∨ s.pins.evReady = true))) ∧
    (s.byteTaken = true → s.pins.tsResetReq = false →
      ∃ r, exec (decodeByte s.phase s.fb0 s.fb1 s.fb2 s.pins.inData) s.beginEdge = .next r ∧
        t.out = r.out)

/-- 43_ports_and_handshake.md R125: while an event waits it stays unchanged; when it is transferred `ev_valid` falls
unless a new event is loaded; while nothing is presented the payload keeps its last value. -/
def Obligations.EventHandshake : Prop :=
  ∀ s t : State, s.pins.rst = false → step s = .next t →
    (s.out.valid = true → s.pins.evReady = false → t.out = s.out) ∧
    (s.out.valid = true → s.pins.evReady = true →
      t.out = { s.out with valid := false } ∨
      (t.out.valid = true ∧ s.byteTaken = true ∧ s.phase = .fetch3)) ∧
    (s.out.valid = false →
      t.out = s.out ∨ (t.out.valid = true ∧ s.byteTaken = true ∧ s.phase = .fetch3))

/-- 43_ports_and_handshake.md R126 and R127: after an edge a strobe is 1 exactly if that edge's transaction raised it, and
the ports show it; with the command the reset event appears. What the ports show while `rst` is high is R161's and stated
elsewhere (log entry 13). -/
def Obligations.StrobesTellTheLastEdge : Prop :=
  ∀ s t : State, step s = .next t →
    let took := s.pins.rst = false ∧ s.byteTaken = true
    let pending := (s.resetPending || s.pins.tsResetReq) = true
    let T := 256 * s.fb2.toNat + s.pins.inData.toNat
    let wraps := T < s.tb.lastShort.toNat
    let special := pending ∨ (wraps ∧ ceilingNat s.params < s.tb.wrapAdd.toNat + 65536)
    let inside := s.fb1.toNat % 128 < s.pins.cfgSizeX.toNat ∧ s.fb0.toNat % 128 < s.pins.cfgSizeY.toNat
    (t.strobes.stResync = true ↔ took ∧ s.phase = .scan ∧ s.pins.inData.toNat < 128) ∧
    (t.strobes.cmdTsReset = true ↔ took ∧ s.phase = .fetch3 ∧ pending) ∧
    (t.strobes.stDrop = true ↔ took ∧ s.phase = .fetch3 ∧ ¬special ∧ ¬inside) ∧
    (t.strobes.stMono = true ↔ took ∧ s.phase = .fetch3 ∧ ¬special ∧ t.tb.current < t.tb.last) ∧
    (t.strobes.cmdTsReset = true → t.out = ⟨true, resetEvent s.params.resetEventTs⟩) ∧
    (t.pins.rst = false →
      t.outputs.stResync = t.strobes.stResync ∧ t.outputs.cmdTsReset = t.strobes.cmdTsReset ∧
      t.outputs.stDrop = t.strobes.stDrop ∧ t.outputs.stMono = t.strobes.stMono) ∧
    t.outputs.stResyncCount = t.cnt.resync ∧ t.outputs.stDropCount = t.cnt.drop ∧
    t.outputs.stMonoCount = t.cnt.mono ∧ t.outputs.stWrapOverflow = t.tb.wrapOverflow ∧
    t.outputs.stResetPending = t.resetPending

/-- 60_exceptions.md R141: a condition's counter and its strobe go together: at an edge without reset each counter moves
by one modulo 2^32 if its strobe is raised, and not otherwise. -/
def Obligations.CountersCountTheStrobes : Prop :=
  ∀ s t : State, s.pins.rst = false → step s = .next t →
    t.cnt.resync.toNat = (s.cnt.resync.toNat + if t.strobes.stResync then 1 else 0) % 2 ^ 32 ∧
    t.cnt.drop.toNat = (s.cnt.drop.toNat + if t.strobes.stDrop then 1 else 0) % 2 ^ 32 ∧
    t.cnt.mono.toNat = (s.cnt.mono.toNat + if t.strobes.stMono then 1 else 0) % 2 ^ 32

/-- 41_field_extractor.md R91: the configuration matters only at the edge that takes a frame's byte 3. -/
def Obligations.ConfigurationIsReadAtByteThree : Prop :=
  ∀ (s : State) (cx cy : Short), ¬(s.byteTaken = true ∧ s.phase = .fetch3) →
    ∃ t u, step s = .next t ∧
      step { s with pins := { s.pins with cfgSizeX := cx, cfgSizeY := cy } } = .next u ∧
      u.registers = t.registers ∧ u.out = t.out ∧ u.strobes = t.strobes

/-- 00_scope.md and 10_state.md section 6: an edge never changes the build parameters; the input levels move on by one
cycle of the schedule (the model's own, log entry 1). -/
def Obligations.StepKeepsParametersAndMovesInputs : Prop :=
  ∀ s t : State, step s = .next t →
    t.params = s.params ∧ t.inputs = s.inputs.tail ∧ ∀ p ps, s.inputs = p :: ps → t.pins = p

/-! ## Runs -/

/-- 40_frame_synchronizer.md R80 and R84: over any number of edges that take no byte, idle or with requests, the partial
frame is kept, and the byte that arrives then selects what it would have selected at once. -/
def Obligations.PartialFrameWaits : Prop :=
  ∀ (n : Nat) (s : State), resetLow n s = true →
    (∀ it ∈ itemsTaken n s, it.txn = .resetReq) →
    (cycles n s).phase = s.phase ∧ (cycles n s).fb0 = s.fb0 ∧ (cycles n s).fb1 = s.fb1 ∧
    (cycles n s).fb2 = s.fb2 ∧
    ∀ b, (Transaction.byte b).select (cycles n s) = (Transaction.byte b).select s

/-- 43_ports_and_handshake.md section on agreement: a cycle-level run without hardware reset and the transaction-level run
of the items it takes end with the same registers; the events transferred and the one still presented are, in order, the
one presented at the start and those emitted; commands and conditions agree. A command or condition counts as sent when an
edge raised it, whatever `rst` is in the cycle of its strobe: the model's choice (log entry 19). -/
def Obligations.CyclesAgreeWithTransactions : Prop :=
  ∀ (n : Nat) (s : State), resetLow n s = true →
    Host.Core.run Sys2Proof.core n s = .next (cycles n s) ∧
    (cycles n s).registers = (streamRun (itemsTaken n s) s).2.registers ∧
    s.presented ++ (streamRun (itemsTaken n s) s).1.events =
      (portsSent n s).events ++ (cycles n s).presented ∧
    (streamRun (itemsTaken n s) s).1.commands = (portsSent n s).commands ∧
    (streamRun (itemsTaken n s) s).1.conditions = (portsSent n s).conditions

/-- 20_memory.md section 3, deferral: two runs that take the same items, whatever idle cycles lie between them and however
the sink delays, end with the same registers and have sent or still hold the same events. -/
def Obligations.DeliveryTimingDoesNotMatter : Prop :=
  ∀ (n m : Nat) (s u : State), resetLow n s = true → resetLow m u = true →
    s.registers = u.registers → s.presented = u.presented → itemsTaken n s = itemsTaken m u →
    (cycles n s).registers = (cycles m u).registers ∧
    (portsSent n s).events ++ (cycles n s).presented =
      (portsSent m u).events ++ (cycles m u).presented

/-- 40_frame_synchronizer.md, bytes consumed: the bytes of a stream are its SKIP bytes, four times its completed frames,
and what the phase still holds. -/
def Obligations.BytesAreSkippedOrFramed : Prop :=
  ∀ (items : List StreamItem) (s : State),
    phaseCount s.phase + (items.filter StreamItem.isByte).length =
      ((streamInstrs items s).filter isSkip).length +
      4 * ((streamInstrs items s).filter isFrame).length +
      phaseCount (streamRun items s).2.phase

/-- 10_state.md section 7: after any stream the bytes held are the last `phase` bytes that arrived. -/
def Obligations.HeldBytesAreTheLastOnes : Prop :=
  ∀ (items : List StreamItem) (s : State),
    (streamRun items s).2.heldBytes.length = phaseCount (streamRun items s).2.phase ∧
    (streamRun items s).2.heldBytes <:+ s.heldBytes ++ items.filterMap StreamItem.byte?

/-- 41_field_extractor.md, at most one event a frame; 42_timestamp_reconstructor.md, one command for each reset event. -/
def Obligations.OneEventAFrameOneCommandAReset : Prop :=
  ∀ (items : List StreamItem) (s : State),
    (streamRun items s).1.events.length ≤ ((streamInstrs items s).filter isFrame).length ∧
    (streamRun items s).1.commands =
      ((streamRun items s).1.events.filter fun e => e.kind == 2).length

/-- 30_encoding.md section 4: no run from a state with the invariant emits an event that the model's `Sink`
(log entry 18) refuses, and exactly the special events carry the seal. -/
def Obligations.SinkTakesEveryEvent : Prop :=
  ∀ (items : List StreamItem) (s : State) (k : Sink), s.Inv →
    (∃ k', Sink.appendAll (streamRun items s).1.events k = .next k') ∧
    ∀ e ∈ (streamRun items s).1.events, e.kind ≠ 3 ∧ (e.sealBit = true ↔ e.kind ≠ 0)

/-- Of the MODEL'S `Sink` (log entry 18), which appends and then seals as 41_field_extractor.md R87 says and seals for no
other reason: its batches keep the order of events, a sealed batch ends with the event that sealed it and holds no other
such event, and the open batch holds none. A sink of the spec may also seal by size and duration (R97), so this is no claim
about every sink. -/
def Obligations.BatchesEndAtSeals : Prop :=
  ∀ (es : List Event) (k : Sink), Sink.appendAll es ⟨[], []⟩ = .next k →
    k.sealedBatches.flatten ++ k.openBatch = es ∧
    (∀ batch ∈ k.sealedBatches, ∃ front e, batch = front ++ [e] ∧ e.sealBit = true ∧
      ∀ f ∈ front, f.sealBit = false) ∧
    ∀ e ∈ k.openBatch, e.sealBit = false
end

