-- ==== Sys2Proof/Laws/State.lean ====
section
/-! SUPPORT. One lemma per field per update of State, so that no later proof unfolds a record update. -/

namespace Sys2Proof.Machine

variable (s : State)

/-! ## setPhase -/

@[simp] theorem State.setPhase_params (p : Phase) : (s.setPhase p).params = s.params := rfl
@[simp] theorem State.setPhase_phase (p : Phase) : (s.setPhase p).phase = p := rfl
@[simp] theorem State.setPhase_fb0 (p : Phase) : (s.setPhase p).fb0 = s.fb0 := rfl
@[simp] theorem State.setPhase_fb1 (p : Phase) : (s.setPhase p).fb1 = s.fb1 := rfl
@[simp] theorem State.setPhase_fb2 (p : Phase) : (s.setPhase p).fb2 = s.fb2 := rfl
@[simp] theorem State.setPhase_resetPending (p : Phase) : (s.setPhase p).resetPending = s.resetPending := rfl
@[simp] theorem State.setPhase_tb (p : Phase) : (s.setPhase p).tb = s.tb := rfl
@[simp] theorem State.setPhase_cnt (p : Phase) : (s.setPhase p).cnt = s.cnt := rfl
@[simp] theorem State.setPhase_out (p : Phase) : (s.setPhase p).out = s.out := rfl
@[simp] theorem State.setPhase_strobes (p : Phase) : (s.setPhase p).strobes = s.strobes := rfl
@[simp] theorem State.setPhase_pins (p : Phase) : (s.setPhase p).pins = s.pins := rfl
@[simp] theorem State.setPhase_inputs (p : Phase) : (s.setPhase p).inputs = s.inputs := rfl

/-! ## setFb0 -/

@[simp] theorem State.setFb0_params (b : Byte) : (s.setFb0 b).params = s.params := rfl
@[simp] theorem State.setFb0_phase (b : Byte) : (s.setFb0 b).phase = s.phase := rfl
@[simp] theorem State.setFb0_fb0 (b : Byte) : (s.setFb0 b).fb0 = b := rfl
@[simp] theorem State.setFb0_fb1 (b : Byte) : (s.setFb0 b).fb1 = s.fb1 := rfl
@[simp] theorem State.setFb0_fb2 (b : Byte) : (s.setFb0 b).fb2 = s.fb2 := rfl
@[simp] theorem State.setFb0_resetPending (b : Byte) : (s.setFb0 b).resetPending = s.resetPending := rfl
@[simp] theorem State.setFb0_tb (b : Byte) : (s.setFb0 b).tb = s.tb := rfl
@[simp] theorem State.setFb0_cnt (b : Byte) : (s.setFb0 b).cnt = s.cnt := rfl
@[simp] theorem State.setFb0_out (b : Byte) : (s.setFb0 b).out = s.out := rfl
@[simp] theorem State.setFb0_strobes (b : Byte) : (s.setFb0 b).strobes = s.strobes := rfl
@[simp] theorem State.setFb0_pins (b : Byte) : (s.setFb0 b).pins = s.pins := rfl
@[simp] theorem State.setFb0_inputs (b : Byte) : (s.setFb0 b).inputs = s.inputs := rfl

/-! ## setFb1 -/

@[simp] theorem State.setFb1_params (b : Byte) : (s.setFb1 b).params = s.params := rfl
@[simp] theorem State.setFb1_phase (b : Byte) : (s.setFb1 b).phase = s.phase := rfl
@[simp] theorem State.setFb1_fb0 (b : Byte) : (s.setFb1 b).fb0 = s.fb0 := rfl
@[simp] theorem State.setFb1_fb1 (b : Byte) : (s.setFb1 b).fb1 = b := rfl
@[simp] theorem State.setFb1_fb2 (b : Byte) : (s.setFb1 b).fb2 = s.fb2 := rfl
@[simp] theorem State.setFb1_resetPending (b : Byte) : (s.setFb1 b).resetPending = s.resetPending := rfl
@[simp] theorem State.setFb1_tb (b : Byte) : (s.setFb1 b).tb = s.tb := rfl
@[simp] theorem State.setFb1_cnt (b : Byte) : (s.setFb1 b).cnt = s.cnt := rfl
@[simp] theorem State.setFb1_out (b : Byte) : (s.setFb1 b).out = s.out := rfl
@[simp] theorem State.setFb1_strobes (b : Byte) : (s.setFb1 b).strobes = s.strobes := rfl
@[simp] theorem State.setFb1_pins (b : Byte) : (s.setFb1 b).pins = s.pins := rfl
@[simp] theorem State.setFb1_inputs (b : Byte) : (s.setFb1 b).inputs = s.inputs := rfl

/-! ## setFb2 -/

@[simp] theorem State.setFb2_params (b : Byte) : (s.setFb2 b).params = s.params := rfl
@[simp] theorem State.setFb2_phase (b : Byte) : (s.setFb2 b).phase = s.phase := rfl
@[simp] theorem State.setFb2_fb0 (b : Byte) : (s.setFb2 b).fb0 = s.fb0 := rfl
@[simp] theorem State.setFb2_fb1 (b : Byte) : (s.setFb2 b).fb1 = s.fb1 := rfl
@[simp] theorem State.setFb2_fb2 (b : Byte) : (s.setFb2 b).fb2 = b := rfl
@[simp] theorem State.setFb2_resetPending (b : Byte) : (s.setFb2 b).resetPending = s.resetPending := rfl
@[simp] theorem State.setFb2_tb (b : Byte) : (s.setFb2 b).tb = s.tb := rfl
@[simp] theorem State.setFb2_cnt (b : Byte) : (s.setFb2 b).cnt = s.cnt := rfl
@[simp] theorem State.setFb2_out (b : Byte) : (s.setFb2 b).out = s.out := rfl
@[simp] theorem State.setFb2_strobes (b : Byte) : (s.setFb2 b).strobes = s.strobes := rfl
@[simp] theorem State.setFb2_pins (b : Byte) : (s.setFb2 b).pins = s.pins := rfl
@[simp] theorem State.setFb2_inputs (b : Byte) : (s.setFb2 b).inputs = s.inputs := rfl

/-! ## setResetPending -/

@[simp] theorem State.setResetPending_params (r : Bool) : (s.setResetPending r).params = s.params := rfl
@[simp] theorem State.setResetPending_phase (r : Bool) : (s.setResetPending r).phase = s.phase := rfl
@[simp] theorem State.setResetPending_fb0 (r : Bool) : (s.setResetPending r).fb0 = s.fb0 := rfl
@[simp] theorem State.setResetPending_fb1 (r : Bool) : (s.setResetPending r).fb1 = s.fb1 := rfl
@[simp] theorem State.setResetPending_fb2 (r : Bool) : (s.setResetPending r).fb2 = s.fb2 := rfl
@[simp] theorem State.setResetPending_resetPending (r : Bool) : (s.setResetPending r).resetPending = r := rfl
@[simp] theorem State.setResetPending_tb (r : Bool) : (s.setResetPending r).tb = s.tb := rfl
@[simp] theorem State.setResetPending_cnt (r : Bool) : (s.setResetPending r).cnt = s.cnt := rfl
@[simp] theorem State.setResetPending_out (r : Bool) : (s.setResetPending r).out = s.out := rfl
@[simp] theorem State.setResetPending_strobes (r : Bool) : (s.setResetPending r).strobes = s.strobes := rfl
@[simp] theorem State.setResetPending_pins (r : Bool) : (s.setResetPending r).pins = s.pins := rfl
@[simp] theorem State.setResetPending_inputs (r : Bool) : (s.setResetPending r).inputs = s.inputs := rfl

/-! ## setTimeBase -/

@[simp] theorem State.setTimeBase_params (tb : TimeBase) : (s.setTimeBase tb).params = s.params := rfl
@[simp] theorem State.setTimeBase_phase (tb : TimeBase) : (s.setTimeBase tb).phase = s.phase := rfl
@[simp] theorem State.setTimeBase_fb0 (tb : TimeBase) : (s.setTimeBase tb).fb0 = s.fb0 := rfl
@[simp] theorem State.setTimeBase_fb1 (tb : TimeBase) : (s.setTimeBase tb).fb1 = s.fb1 := rfl
@[simp] theorem State.setTimeBase_fb2 (tb : TimeBase) : (s.setTimeBase tb).fb2 = s.fb2 := rfl
@[simp] theorem State.setTimeBase_resetPending (tb : TimeBase) : (s.setTimeBase tb).resetPending = s.resetPending := rfl
@[simp] theorem State.setTimeBase_tb (tb : TimeBase) : (s.setTimeBase tb).tb = tb := rfl
@[simp] theorem State.setTimeBase_cnt (tb : TimeBase) : (s.setTimeBase tb).cnt = s.cnt := rfl
@[simp] theorem State.setTimeBase_out (tb : TimeBase) : (s.setTimeBase tb).out = s.out := rfl
@[simp] theorem State.setTimeBase_strobes (tb : TimeBase) : (s.setTimeBase tb).strobes = s.strobes := rfl
@[simp] theorem State.setTimeBase_pins (tb : TimeBase) : (s.setTimeBase tb).pins = s.pins := rfl
@[simp] theorem State.setTimeBase_inputs (tb : TimeBase) : (s.setTimeBase tb).inputs = s.inputs := rfl

/-! ## emit -/

@[simp] theorem State.emit_params (e : Event) : (s.emit e).params = s.params := rfl
@[simp] theorem State.emit_phase (e : Event) : (s.emit e).phase = s.phase := rfl
@[simp] theorem State.emit_fb0 (e : Event) : (s.emit e).fb0 = s.fb0 := rfl
@[simp] theorem State.emit_fb1 (e : Event) : (s.emit e).fb1 = s.fb1 := rfl
@[simp] theorem State.emit_fb2 (e : Event) : (s.emit e).fb2 = s.fb2 := rfl
@[simp] theorem State.emit_resetPending (e : Event) : (s.emit e).resetPending = s.resetPending := rfl
@[simp] theorem State.emit_tb (e : Event) : (s.emit e).tb = s.tb := rfl
@[simp] theorem State.emit_cnt (e : Event) : (s.emit e).cnt = s.cnt := rfl
@[simp] theorem State.emit_out (e : Event) : (s.emit e).out = ⟨true, e⟩ := rfl
@[simp] theorem State.emit_strobes (e : Event) : (s.emit e).strobes = s.strobes := rfl
@[simp] theorem State.emit_pins (e : Event) : (s.emit e).pins = s.pins := rfl
@[simp] theorem State.emit_inputs (e : Event) : (s.emit e).inputs = s.inputs := rfl

/-! ## command -/

@[simp] theorem State.command_params : (s.command).params = s.params := rfl
@[simp] theorem State.command_phase : (s.command).phase = s.phase := rfl
@[simp] theorem State.command_fb0 : (s.command).fb0 = s.fb0 := rfl
@[simp] theorem State.command_fb1 : (s.command).fb1 = s.fb1 := rfl
@[simp] theorem State.command_fb2 : (s.command).fb2 = s.fb2 := rfl
@[simp] theorem State.command_resetPending : (s.command).resetPending = s.resetPending := rfl
@[simp] theorem State.command_tb : (s.command).tb = s.tb := rfl
@[simp] theorem State.command_cnt : (s.command).cnt = s.cnt := rfl
@[simp] theorem State.command_out : (s.command).out = s.out := rfl
@[simp] theorem State.command_strobes : (s.command).strobes = { s.strobes with cmdTsReset := true } := rfl
@[simp] theorem State.command_pins : (s.command).pins = s.pins := rfl
@[simp] theorem State.command_inputs : (s.command).inputs = s.inputs := rfl

/-! ## offerByte -/

@[simp] theorem State.offerByte_params (b : Byte) : (s.offerByte b).params = s.params := rfl
@[simp] theorem State.offerByte_phase (b : Byte) : (s.offerByte b).phase = s.phase := rfl
@[simp] theorem State.offerByte_fb0 (b : Byte) : (s.offerByte b).fb0 = s.fb0 := rfl
@[simp] theorem State.offerByte_fb1 (b : Byte) : (s.offerByte b).fb1 = s.fb1 := rfl
@[simp] theorem State.offerByte_fb2 (b : Byte) : (s.offerByte b).fb2 = s.fb2 := rfl
@[simp] theorem State.offerByte_resetPending (b : Byte) : (s.offerByte b).resetPending = s.resetPending := rfl
@[simp] theorem State.offerByte_tb (b : Byte) : (s.offerByte b).tb = s.tb := rfl
@[simp] theorem State.offerByte_cnt (b : Byte) : (s.offerByte b).cnt = s.cnt := rfl
@[simp] theorem State.offerByte_out (b : Byte) : (s.offerByte b).out = s.out := rfl
@[simp] theorem State.offerByte_strobes (b : Byte) : (s.offerByte b).strobes = s.strobes := rfl
@[simp] theorem State.offerByte_inputs (b : Byte) : (s.offerByte b).inputs = s.inputs := rfl

/-! ## offerRequest -/

@[simp] theorem State.offerRequest_params : (s.offerRequest).params = s.params := rfl
@[simp] theorem State.offerRequest_phase : (s.offerRequest).phase = s.phase := rfl
@[simp] theorem State.offerRequest_fb0 : (s.offerRequest).fb0 = s.fb0 := rfl
@[simp] theorem State.offerRequest_fb1 : (s.offerRequest).fb1 = s.fb1 := rfl
@[simp] theorem State.offerRequest_fb2 : (s.offerRequest).fb2 = s.fb2 := rfl
@[simp] theorem State.offerRequest_resetPending : (s.offerRequest).resetPending = s.resetPending := rfl
@[simp] theorem State.offerRequest_tb : (s.offerRequest).tb = s.tb := rfl
@[simp] theorem State.offerRequest_cnt : (s.offerRequest).cnt = s.cnt := rfl
@[simp] theorem State.offerRequest_out : (s.offerRequest).out = s.out := rfl
@[simp] theorem State.offerRequest_strobes : (s.offerRequest).strobes = s.strobes := rfl
@[simp] theorem State.offerRequest_inputs : (s.offerRequest).inputs = s.inputs := rfl

/-! ## beginEdge -/

@[simp] theorem State.beginEdge_params : (s.beginEdge).params = s.params := rfl
@[simp] theorem State.beginEdge_phase : (s.beginEdge).phase = s.phase := rfl
@[simp] theorem State.beginEdge_fb0 : (s.beginEdge).fb0 = s.fb0 := rfl
@[simp] theorem State.beginEdge_fb1 : (s.beginEdge).fb1 = s.fb1 := rfl
@[simp] theorem State.beginEdge_fb2 : (s.beginEdge).fb2 = s.fb2 := rfl
@[simp] theorem State.beginEdge_resetPending : (s.beginEdge).resetPending = s.resetPending := rfl
@[simp] theorem State.beginEdge_tb : (s.beginEdge).tb = s.tb := rfl
@[simp] theorem State.beginEdge_cnt : (s.beginEdge).cnt = s.cnt := rfl
@[simp] theorem State.beginEdge_out : (s.beginEdge).out = { s.out with valid := s.out.valid && !s.eventTaken } := rfl
@[simp] theorem State.beginEdge_strobes : (s.beginEdge).strobes = Strobes.low := rfl
@[simp] theorem State.beginEdge_pins : (s.beginEdge).pins = s.pins := rfl
@[simp] theorem State.beginEdge_inputs : (s.beginEdge).inputs = s.inputs := rfl

/-! ## raise -/

@[simp] theorem State.raise_params (c : Condition) : (s.raise c).params = s.params := by cases c <;> rfl
@[simp] theorem State.raise_phase (c : Condition) : (s.raise c).phase = s.phase := by cases c <;> rfl
@[simp] theorem State.raise_fb0 (c : Condition) : (s.raise c).fb0 = s.fb0 := by cases c <;> rfl
@[simp] theorem State.raise_fb1 (c : Condition) : (s.raise c).fb1 = s.fb1 := by cases c <;> rfl
@[simp] theorem State.raise_fb2 (c : Condition) : (s.raise c).fb2 = s.fb2 := by cases c <;> rfl
@[simp] theorem State.raise_resetPending (c : Condition) : (s.raise c).resetPending = s.resetPending := by cases c <;> rfl
@[simp] theorem State.raise_tb (c : Condition) : (s.raise c).tb = s.tb := by cases c <;> rfl
@[simp] theorem State.raise_out (c : Condition) : (s.raise c).out = s.out := by cases c <;> rfl
@[simp] theorem State.raise_pins (c : Condition) : (s.raise c).pins = s.pins := by cases c <;> rfl
@[simp] theorem State.raise_inputs (c : Condition) : (s.raise c).inputs = s.inputs := by cases c <;> rfl
@[simp] theorem State.raise_resync_cnt :
    (s.raise .resync).cnt = { s.cnt with resync := s.cnt.resync + 1 } := rfl
@[simp] theorem State.raise_resync_strobes :
    (s.raise .resync).strobes = { s.strobes with stResync := true } := rfl
@[simp] theorem State.raise_rangeDrop_cnt :
    (s.raise .rangeDrop).cnt = { s.cnt with drop := s.cnt.drop + 1 } := rfl
@[simp] theorem State.raise_rangeDrop_strobes :
    (s.raise .rangeDrop).strobes = { s.strobes with stDrop := true } := rfl
@[simp] theorem State.raise_monoWarn_cnt :
    (s.raise .monoWarn).cnt = { s.cnt with mono := s.cnt.mono + 1 } := rfl
@[simp] theorem State.raise_monoWarn_strobes :
    (s.raise .monoWarn).strobes = { s.strobes with stMono := true } := rfl

/-! ## drive: the registers of `r`, the input levels after `s` -/

@[simp] theorem State.drive_params (r : State) : (s.drive r).params = r.params := rfl
@[simp] theorem State.drive_phase (r : State) : (s.drive r).phase = r.phase := rfl
@[simp] theorem State.drive_fb0 (r : State) : (s.drive r).fb0 = r.fb0 := rfl
@[simp] theorem State.drive_fb1 (r : State) : (s.drive r).fb1 = r.fb1 := rfl
@[simp] theorem State.drive_fb2 (r : State) : (s.drive r).fb2 = r.fb2 := rfl
@[simp] theorem State.drive_resetPending (r : State) : (s.drive r).resetPending = r.resetPending := rfl
@[simp] theorem State.drive_tb (r : State) : (s.drive r).tb = r.tb := rfl
@[simp] theorem State.drive_cnt (r : State) : (s.drive r).cnt = r.cnt := rfl
@[simp] theorem State.drive_out (r : State) : (s.drive r).out = r.out := rfl
@[simp] theorem State.drive_strobes (r : State) : (s.drive r).strobes = r.strobes := rfl
@[simp] theorem State.drive_pins (r : State) : (s.drive r).pins = s.nextPins := rfl
@[simp] theorem State.drive_inputs (r : State) : (s.drive r).inputs = s.inputs.tail := rfl

/-! ## hardwareReset -/

@[simp] theorem State.hardwareReset_params : s.hardwareReset.params = s.params := rfl
@[simp] theorem State.hardwareReset_phase : s.hardwareReset.phase = State.reset.phase := rfl
@[simp] theorem State.hardwareReset_fb0 : s.hardwareReset.fb0 = State.reset.fb0 := rfl
@[simp] theorem State.hardwareReset_fb1 : s.hardwareReset.fb1 = State.reset.fb1 := rfl
@[simp] theorem State.hardwareReset_fb2 : s.hardwareReset.fb2 = State.reset.fb2 := rfl
@[simp] theorem State.hardwareReset_resetPending : s.hardwareReset.resetPending = State.reset.resetPending := rfl
@[simp] theorem State.hardwareReset_tb : s.hardwareReset.tb = State.reset.tb := rfl
@[simp] theorem State.hardwareReset_cnt : s.hardwareReset.cnt = State.reset.cnt := rfl
@[simp] theorem State.hardwareReset_out : s.hardwareReset.out = State.reset.out := rfl
@[simp] theorem State.hardwareReset_strobes : s.hardwareReset.strobes = State.reset.strobes := rfl
@[simp] theorem State.hardwareReset_pins : s.hardwareReset.pins = s.pins := rfl
@[simp] theorem State.hardwareReset_inputs : s.hardwareReset.inputs = s.inputs := rfl

end Sys2Proof.Machine
end

