-- ==== Sys2Proof/Laws/Reconstructor.lean ====
section
/-! SUPPORT. What the time base operations and a completed frame can do, said once. -/

namespace Sys2Proof.Machine

open Sys2Proof.Config

/-! ## The tests, in numbers -/

theorem wrapDetected_iff (t : Short) (tb : TimeBase) :
    wrapDetected t tb = true ↔ t.toNat < tb.lastShort.toNat := by
  simp [wrapDetected, BitVec.lt_def]

theorem ceilingReached_iff (p : Params) (tb : TimeBase) :
    ceilingReached p tb = true ↔ ceilingNat p < tb.wrapAdd.toNat + 65536 := by
  rw [ceilingReached, decide_eq_true_iff]
  exact Iff.rfl

theorem zextAddress_toNat (a : Address) : (zextAddress a).toNat = a.toNat := by
  simp only [zextAddress, BitVec.toNat_setWidth]
  exact Nat.mod_eq_of_lt (by have := a.isLt; omega)

theorem zextShort_toNat (t : Short) : (zextShort t).toNat = t.toNat := by
  simp only [zextShort, BitVec.toNat_setWidth]
  exact Nat.mod_eq_of_lt (by have := t.isLt; omega)

theorem inRange_iff (y x : Address) (p : Pins) :
    inRange y x p = true ↔ x.toNat < p.cfgSizeX.toNat ∧ y.toNat < p.cfgSizeY.toNat := by
  simp [inRange, BitVec.lt_def, zextAddress_toNat]

theorem ceilingNat_cases (p : Params) :
    (p.wrapCeiling = .signed ∧ ceilingNat p = 2147483647) ∨
    (p.wrapCeiling = .unsigned ∧ ceilingNat p = 4294967295) := by
  obtain ⟨c, r⟩ := p
  cases c
  · exact .inl ⟨rfl, by simp only [ceilingNat, ceilingWord]; decide⟩
  · exact .inr ⟨rfl, by simp only [ceilingNat, ceilingWord]; decide⟩

/-! ## TimeBaseState -/

theorem TimeBase.track_of_wrap {t : Short} {tb : TimeBase} (h : t.toNat < tb.lastShort.toNat) :
    tb.track t =
      ⟨tb.wrapOverflow, tb.wrapAdd + 0x10000#32, 0, tb.current, tb.wrapAdd + 0x10000#32 + zextShort t⟩ := by
  rw [TimeBase.track, if_pos ((wrapDetected_iff t tb).2 h)]
  simp only [TimeBase.compute, TimeBase.normalWrap, tsWrapAdd]

theorem TimeBase.track_of_no_wrap {t : Short} {tb : TimeBase} (h : ¬t.toNat < tb.lastShort.toNat) :
    tb.track t = ⟨tb.wrapOverflow, tb.wrapAdd, t, tb.current, tb.wrapAdd + zextShort t⟩ := by
  rw [TimeBase.track, if_neg (mt (wrapDetected_iff t tb).1 h)]
  rfl

/-- WRAP_CEILING + 1 is a multiple of 0x10000. -/
theorem ceilingNat_bounds (p : Params) :
    65536 ≤ ceilingNat p ∧ ceilingNat p ≤ 4294967295 ∧ (ceilingNat p + 1) % 65536 = 0 := by
  rcases ceilingNat_cases p with ⟨_, h⟩ | ⟨_, h⟩ <;> omega

/-- An epoch's start is `Ok`, whatever `wrap_overflow` is. -/
theorem TimeBase.epochStart_ok (p : Params) (n : Word) : (TimeBase.mk n 0 0 0 0).Ok p := by
  have h := ceilingNat_bounds p
  refine ⟨rfl, ?_, Nat.le_refl _, Nat.zero_lt_succ _, Nat.zero_lt_succ _, .inl rfl⟩
  show 0 + 65536 ≤ ceilingNat p + 1
  omega

/-- The arithmetic of a tracked frame from a time base that is `Ok`: nothing wraps 32 bits. -/
theorem TimeBase.track_toNat {p : Params} {t : Short} {tb : TimeBase} (h : tb.Ok p)
    (hc : ¬(t.toNat < tb.lastShort.toNat ∧ ceilingNat p < tb.wrapAdd.toNat + 65536)) :
    (tb.track t).wrapAdd.toNat =
        (if t.toNat < tb.lastShort.toNat then tb.wrapAdd.toNat + 65536 else tb.wrapAdd.toNat) ∧
      (tb.track t).current.toNat = (tb.track t).wrapAdd.toNat + t.toNat ∧
      (tb.track t).last = tb.current ∧
      (tb.track t).lastShort = (if t.toNat < tb.lastShort.toNat then 0 else t) := by
  obtain ⟨h1, h2, -⟩ := h
  have ht := t.isLt
  have hz := zextShort_toNat t
  have hp := ceilingNat_bounds p
  simp only [tsWrapAdd] at h1 h2
  by_cases hw : t.toNat < tb.lastShort.toNat
  · rw [TimeBase.track_of_wrap hw]
    have hle : tb.wrapAdd.toNat + 65536 ≤ ceilingNat p := by
      by_contra hgt
      exact hc ⟨hw, by omega⟩
    simp only [hw, if_true, BitVec.toNat_add, hz, BitVec.toNat_ofNat, and_self, and_true]
    omega
  · rw [TimeBase.track_of_no_wrap hw]
    simp only [hw, if_false, BitVec.toNat_add, hz, true_and, and_true]
    omega

theorem TimeBase.track_ok {p : Params} {t : Short} {tb : TimeBase} (h : tb.Ok p)
    (hc : ¬(t.toNat < tb.lastShort.toNat ∧ ceilingNat p < tb.wrapAdd.toNat + 65536)) :
    (tb.track t).Ok p := by
  obtain ⟨ha, hcur, hl, hs⟩ := TimeBase.track_toNat h hc
  obtain ⟨h1, h2, h3, h4, h5, h6⟩ := h
  have ht := t.isLt
  have hp := ceilingNat_bounds p
  simp only [tsWrapAdd] at h1 h2 h4 h5
  by_cases hw : t.toNat < tb.lastShort.toNat
  · have hle : tb.wrapAdd.toNat + 65536 ≤ ceilingNat p := by
      by_contra hgt
      exact hc ⟨hw, by omega⟩
    simp only [hw, if_true] at ha hs
    simp only [TimeBase.Ok, tsWrapAdd, hl, hs]
    refine ⟨by omega, by omega, by omega, by omega, by omega, .inl trivial⟩
  · simp only [hw, if_false] at ha hs
    simp only [TimeBase.Ok, tsWrapAdd, hl, hs]
    refine ⟨by omega, by omega, by omega, by omega, by omega, .inr (by omega)⟩

/-! ## The monotonicity check -/

theorem State.checkMonotonic_eq (s : State) :
    s.checkMonotonic = if s.tb.current.toNat < s.tb.last.toNat then s.raise .monoWarn else s := by
  simp [State.checkMonotonic, BitVec.lt_def]

@[simp] theorem State.checkMonotonic_params (s : State) : s.checkMonotonic.params = s.params := by
  rw [State.checkMonotonic_eq]; split <;> simp

@[simp] theorem State.checkMonotonic_phase (s : State) : s.checkMonotonic.phase = s.phase := by
  rw [State.checkMonotonic_eq]; split <;> simp

@[simp] theorem State.checkMonotonic_fb0 (s : State) : s.checkMonotonic.fb0 = s.fb0 := by
  rw [State.checkMonotonic_eq]; split <;> simp

@[simp] theorem State.checkMonotonic_fb1 (s : State) : s.checkMonotonic.fb1 = s.fb1 := by
  rw [State.checkMonotonic_eq]; split <;> simp

@[simp] theorem State.checkMonotonic_fb2 (s : State) : s.checkMonotonic.fb2 = s.fb2 := by
  rw [State.checkMonotonic_eq]; split <;> simp

@[simp] theorem State.checkMonotonic_resetPending (s : State) : s.checkMonotonic.resetPending = s.resetPending := by
  rw [State.checkMonotonic_eq]; split <;> simp

@[simp] theorem State.checkMonotonic_tb (s : State) : s.checkMonotonic.tb = s.tb := by
  rw [State.checkMonotonic_eq]; split <;> simp

@[simp] theorem State.checkMonotonic_out (s : State) : s.checkMonotonic.out = s.out := by
  rw [State.checkMonotonic_eq]; split <;> simp

@[simp] theorem State.checkMonotonic_pins (s : State) : s.checkMonotonic.pins = s.pins := by
  rw [State.checkMonotonic_eq]; split <;> simp

@[simp] theorem State.checkMonotonic_inputs (s : State) : s.checkMonotonic.inputs = s.inputs := by
  rw [State.checkMonotonic_eq]; split <;> simp

theorem State.checkMonotonic_cnt (s : State) : s.checkMonotonic.cnt = { s.cnt with
    mono := if s.tb.current.toNat < s.tb.last.toNat then s.cnt.mono + 1 else s.cnt.mono } := by
  rw [State.checkMonotonic_eq]; split <;> simp

theorem State.checkMonotonic_strobes (s : State) : s.checkMonotonic.strobes = { s.strobes with
    stMono := s.strobes.stMono || decide (s.tb.current.toNat < s.tb.last.toNat) } := by
  rw [State.checkMonotonic_eq]
  by_cases h : s.tb.current.toNat < s.tb.last.toNat <;> simp [h]

/-! ## A completed frame -/

/-- Everything a completed FRAME can do: apply a pending reset, wrap the accumulator, or track time and then emit a pixel
or drop it. -/
theorem execFrame_cases (y x : Address) (pol : Bool) (t : Short) (s : State) :
    (s.resetPending = true ∧
      execFrame y x pol t s =
        .next ((s.setPhase .scan).applyReset.emit (resetEvent s.params.resetEventTs))) ∨
    (s.resetPending = false ∧ t.toNat < s.tb.lastShort.toNat ∧
      ceilingNat s.params < s.tb.wrapAdd.toNat + 65536 ∧
      execFrame y x pol t s =
        .next (((s.setPhase .scan).setTimeBase s.tb.bigWrap).emit (wrapEvent wrapEventTs))) ∨
    (s.resetPending = false ∧
      ¬(t.toNat < s.tb.lastShort.toNat ∧ ceilingNat s.params < s.tb.wrapAdd.toNat + 65536) ∧
      execFrame y x pol t s =
        .next (if x.toNat < s.pins.cfgSizeX.toNat ∧ y.toNat < s.pins.cfgSizeY.toNat then
            ((s.setPhase .scan).setTimeBase (s.tb.track t)).checkMonotonic.emit
              (pixelEvent (s.tb.track t).current y x pol)
          else ((s.setPhase .scan).setTimeBase (s.tb.track t)).checkMonotonic.raise .rangeDrop)) := by
  by_cases hp : s.resetPending = true
  · exact .inl ⟨hp, by simp [execFrame, dispatch, advance, hp]⟩
  · replace hp : s.resetPending = false := by simpa using hp
    by_cases hw : t.toNat < s.tb.lastShort.toNat ∧ ceilingNat s.params < s.tb.wrapAdd.toNat + 65536
    · refine .inr (.inl ⟨hp, hw.1, hw.2, ?_⟩)
      simp [execFrame, dispatch, advance, hp, (wrapDetected_iff t s.tb).2 hw.1,
        (ceilingReached_iff s.params s.tb).2 hw.2]
    · refine .inr (.inr ⟨hp, hw, ?_⟩)
      have hb : ¬(wrapDetected t s.tb && ceilingReached s.params s.tb) = true := by
        rw [Bool.and_eq_true, wrapDetected_iff, ceilingReached_iff]; exact hw
      have hr := inRange_iff y x s.pins
      simp only [execFrame, dispatch, advance, State.setPhase_resetPending, State.setPhase_tb,
        State.setPhase_params, hp, hb, if_false, Bool.false_eq_true, State.setPhase_pins,
        State.setTimeBase_tb, hr]

/-- Field by field, what a frame that tracks time leaves. -/
theorem execFrame_tracked {y x : Address} {pol : Bool} {t : Short} {s : State}
    (hp : s.resetPending = false)
    (hc : ¬(t.toNat < s.tb.lastShort.toNat ∧ ceilingNat s.params < s.tb.wrapAdd.toNat + 65536)) :
    ∃ r, execFrame y x pol t s = .next r ∧
      r.params = s.params ∧ r.phase = .scan ∧ r.fb0 = s.fb0 ∧ r.fb1 = s.fb1 ∧ r.fb2 = s.fb2 ∧
      r.resetPending = false ∧ r.tb = s.tb.track t ∧
      r.cnt = { s.cnt with
        mono := if (s.tb.track t).current.toNat < s.tb.current.toNat then s.cnt.mono + 1
          else s.cnt.mono
        drop := if inRange y x s.pins then s.cnt.drop else s.cnt.drop + 1 } ∧
      r.strobes = { s.strobes with
        stMono := s.strobes.stMono || decide ((s.tb.track t).current.toNat < s.tb.current.toNat)
        stDrop := s.strobes.stDrop || !inRange y x s.pins } ∧
      r.out = (if inRange y x s.pins then ⟨true, pixelEvent (s.tb.track t).current y x pol⟩
        else s.out) ∧
      r.pins = s.pins ∧ r.inputs = s.inputs := by
  have hl : (s.tb.track t).last = s.tb.current := by
    by_cases hw : t.toNat < s.tb.lastShort.toNat
    · rw [TimeBase.track_of_wrap hw]
    · rw [TimeBase.track_of_no_wrap hw]
  rcases execFrame_cases y x pol t s with ⟨e, -⟩ | ⟨-, e1, e2, -⟩ | ⟨-, -, e⟩
  · simp [hp] at e
  · exact absurd ⟨e1, e2⟩ hc
  · refine ⟨_, e, ?_⟩
    by_cases hi : x.toNat < s.pins.cfgSizeX.toNat ∧ y.toNat < s.pins.cfgSizeY.toNat
    · rw [if_pos hi, (inRange_iff y x s.pins).2 hi]
      simp [hp, hl, State.checkMonotonic_cnt, State.checkMonotonic_strobes]
    · have hi' : inRange y x s.pins = false := by
        simpa using mt (inRange_iff y x s.pins).1 hi
      rw [if_neg hi, hi']
      simp [hp, hl, State.checkMonotonic_cnt, State.checkMonotonic_strobes]

end Sys2Proof.Machine
end

