-- ==== Sys2Proof/Laws/Edge.lean ====
section
/-! SUPPORT. What an operation and an edge can do, said once: every operation has a next state, and an edge is a reset or
the operations it takes on the state with the transferred event gone and the strobes down. -/

namespace Sys2Proof.Machine

theorem exec_next (i : Instr) (s : State) : ∃ r, exec i s = .next r := by
  cases i with
  | frame y x pol t =>
    rcases execFrame_cases y x pol t s with ⟨-, h⟩ | ⟨-, -, -, h⟩ | ⟨-, -, h⟩ <;> exact ⟨_, h⟩
  | _ => exact ⟨_, rfl⟩

/-- No operation touches the parameters or the input ports. -/
theorem exec_keeps {i : Instr} {s r : State} (h : exec i s = .next r) :
    r.params = s.params ∧ r.pins = s.pins ∧ r.inputs = s.inputs := by
  cases i with
  | frame y x pol t =>
    rcases execFrame_cases y x pol t s with ⟨-, e⟩ | ⟨-, -, -, e⟩ | ⟨-, -, e⟩ <;>
      (rw [show exec (.frame y x pol t) s = execFrame y x pol t s from rfl, e] at h; cases h)
    · exact ⟨rfl, rfl, rfl⟩
    · exact ⟨rfl, rfl, rfl⟩
    · split <;> simp
  | _ => cases h; exact ⟨rfl, rfl, rfl⟩

@[simp] theorem State.finish_next (s r : State) : s.finish (.next r) = .next (s.drive r) := rfl

theorem step_of_reset {s : State} (h : s.pins.rst = true) :
    step s = .next (s.drive s.hardwareReset) := by
  simp [step, clockEdge, h]

theorem step_of_running {s : State} (h : s.pins.rst = false) :
    step s = s.finish (transactAll s.transactions s.beginEdge) := by
  simp [step, clockEdge, h]

theorem State.transactions_of_running {s : State} (h : s.pins.rst = false) :
    s.transactions = (if s.pins.tsResetReq then [.resetReq] else []) ++
      (if s.byteTaken then [.byte s.pins.inData] else []) := by
  simp [State.transactions, h]

theorem transactAll_singleton (t : Transaction) (s : State) :
    transactAll [t] s = exec (t.select s) s := by
  obtain ⟨r, hr⟩ := exec_next (t.select s) s
  simp [transactAll, transact, hr]

theorem transactAll_resetReq_cons (ts : List Transaction) (s : State) :
    transactAll (.resetReq :: ts) s = transactAll ts (s.setResetPending true) := rfl

/-- The state an edge without reset starts its byte from. -/
def State.afterRequest (s : State) : State :=
  if s.pins.tsResetReq then s.beginEdge.setResetPending true else s.beginEdge

/-- An edge without reset: the request if there is one, then the byte if one is taken. -/
theorem step_running_eq {s : State} (h : s.pins.rst = false) :
    step s = if s.byteTaken then
        s.finish (exec (decodeByte s.phase s.fb0 s.fb1 s.fb2 s.pins.inData) s.afterRequest)
      else .next (s.drive s.afterRequest) := by
  rw [step_of_running h, State.transactions_of_running h, State.afterRequest]
  by_cases ht : s.pins.tsResetReq = true <;> by_cases hb : s.byteTaken = true
  · rw [if_pos ht, if_pos hb, if_pos ht, if_pos hb, List.singleton_append,
      transactAll_resetReq_cons, transactAll_singleton]
    rfl
  · rw [if_pos ht, if_neg hb, if_pos ht, if_neg hb, List.append_nil, transactAll_singleton]
    rfl
  · rw [if_neg ht, if_pos hb, if_neg ht, if_pos hb, List.nil_append, transactAll_singleton]
    rfl
  · rw [if_neg ht, if_neg hb, if_neg ht, if_neg hb]
    rfl

theorem step_next (s : State) : ∃ t, step s = .next t := by
  by_cases h : s.pins.rst = true
  · exact ⟨_, step_of_reset h⟩
  · rw [step_running_eq (by simpa using h)]
    split
    · obtain ⟨r, hr⟩ := exec_next (decodeByte s.phase s.fb0 s.fb1 s.fb2 s.pins.inData) s.afterRequest
      exact ⟨_, by rw [hr]; rfl⟩
    · exact ⟨_, rfl⟩

/-! ## The state a byte starts from -/

section
variable (s : State)

@[simp] theorem State.afterRequest_params : s.afterRequest.params = s.params := by
  unfold State.afterRequest; split <;> rfl

@[simp] theorem State.afterRequest_phase : s.afterRequest.phase = s.phase := by
  unfold State.afterRequest; split <;> rfl

@[simp] theorem State.afterRequest_fb0 : s.afterRequest.fb0 = s.fb0 := by
  unfold State.afterRequest; split <;> rfl

@[simp] theorem State.afterRequest_fb1 : s.afterRequest.fb1 = s.fb1 := by
  unfold State.afterRequest; split <;> rfl

@[simp] theorem State.afterRequest_fb2 : s.afterRequest.fb2 = s.fb2 := by
  unfold State.afterRequest; split <;> rfl

@[simp] theorem State.afterRequest_tb : s.afterRequest.tb = s.tb := by
  unfold State.afterRequest; split <;> rfl

@[simp] theorem State.afterRequest_cnt : s.afterRequest.cnt = s.cnt := by
  unfold State.afterRequest; split <;> rfl

@[simp] theorem State.afterRequest_pins : s.afterRequest.pins = s.pins := by
  unfold State.afterRequest; split <;> rfl

@[simp] theorem State.afterRequest_inputs : s.afterRequest.inputs = s.inputs := by
  unfold State.afterRequest; split <;> rfl

@[simp] theorem State.afterRequest_strobes : s.afterRequest.strobes = Strobes.low := by
  unfold State.afterRequest; split <;> rfl

@[simp] theorem State.afterRequest_out : s.afterRequest.out = { s.out with valid := s.out.valid && !s.eventTaken } := by
  unfold State.afterRequest; split <;> rfl

@[simp] theorem State.afterRequest_resetPending :
    s.afterRequest.resetPending = (s.resetPending || s.pins.tsResetReq) := by
  unfold State.afterRequest
  split <;> rename_i h
  · simp [h]
  · simp [Bool.eq_false_iff.2 h]

end

/-- A byte is taken only when the output register is empty or is being emptied (R122). -/
theorem State.byteTaken_frees_out {s : State} (h : s.byteTaken = true) :
    (s.out.valid && !s.eventTaken) = false ∧ (s.out.valid = false ∨ s.pins.evReady = true) := by
  simp only [State.byteTaken, State.inReady, State.eventTaken] at *
  rcases hv : s.out.valid <;> rcases he : s.pins.evReady <;> simp_all

/-! ## An edge, case by case -/

theorem State.phase_cases (s : State) :
    s.phase = .scan ∨ s.phase = .fetch1 ∨ s.phase = .fetch2 ∨ s.phase = .fetch3 := by
  cases s.phase <;> simp

/-- Everything an edge without reset can do: take no byte, or take one as the operation of its phase. -/
theorem step_cases {s t : State} (hr : s.pins.rst = false) (h : step s = .next t) :
    (s.byteTaken = false ∧ t = s.drive s.afterRequest) ∨
    (s.byteTaken = true ∧ s.phase = .scan ∧ syncBit s.pins.inData = true ∧
      t = s.drive ((s.afterRequest.setFb0 s.pins.inData).setPhase .fetch1)) ∨
    (s.byteTaken = true ∧ s.phase = .scan ∧ syncBit s.pins.inData = false ∧
      t = s.drive (s.afterRequest.raise .resync)) ∨
    (s.byteTaken = true ∧ s.phase = .fetch1 ∧
      t = s.drive ((s.afterRequest.setFb1 s.pins.inData).setPhase .fetch2)) ∨
    (s.byteTaken = true ∧ s.phase = .fetch2 ∧
      t = s.drive ((s.afterRequest.setFb2 s.pins.inData).setPhase .fetch3)) ∨
    (s.byteTaken = true ∧ s.phase = .fetch3 ∧
      ∃ r, execFrame (fieldY s.fb0) (fieldX s.fb1) (fieldPol s.fb1) (fieldT s.fb2 s.pins.inData)
        s.afterRequest = .next r ∧ t = s.drive r) := by
  rw [step_running_eq hr] at h
  by_cases hb : s.byteTaken = true
  · rw [if_pos hb] at h
    refine .inr ?_
    rcases s.phase_cases with hp | hp | hp | hp <;> rw [hp] at h ⊢
    · by_cases hs : syncBit s.pins.inData = true
      · simp only [decodeByte, hs, if_true] at h
        cases h
        exact .inl ⟨hb, rfl, hs, rfl⟩
      · replace hs : syncBit s.pins.inData = false := by simpa using hs
        simp only [decodeByte, hs, Bool.false_eq_true, if_false] at h
        cases h
        exact .inr (.inl ⟨hb, rfl, hs, rfl⟩)
    · cases h; exact .inr (.inr (.inl ⟨hb, rfl, rfl⟩))
    · cases h; exact .inr (.inr (.inr (.inl ⟨hb, rfl, rfl⟩)))
    · obtain ⟨r, e⟩ := exec_next (.frame (fieldY s.fb0) (fieldX s.fb1) (fieldPol s.fb1)
        (fieldT s.fb2 s.pins.inData)) s.afterRequest
      rw [decodeByte, decodeFrame, e] at h
      cases h
      exact .inr (.inr (.inr (.inr ⟨hb, rfl, r, e, rfl⟩)))
  · rw [if_neg hb] at h
    cases h
    exact .inl ⟨by simpa using hb, rfl⟩

end Sys2Proof.Machine
end

