-- ==== Sys2Proof/Laws/PerInstr.lean ====
section
/-! SUPPORT. Two facts about every instruction as syntax, one lemma per constructor. -/

namespace Sys2Proof.Laws.StreamLength

/-- The bytes of an instruction are as many as its place in the frame says (30_encoding.md R55, R70), and those of a
well-formed frame operation begin with a sync byte (R57). -/
def Statement (i : Instr) : Prop :=
  (encode i).length = (match i with
    | .skip _ => 1
    | .sync _ => 1
    | .collect1 _ => 2
    | .collect2 _ => 3
    | .frame _ _ _ _ => 4
    | .resetReq => 0) ∧
  ∀ b bs, i.wellFormed = true → encode i = b :: bs → (syncBit b = true ↔ i ≠ .skip b)

theorem skip (b : Byte) : Statement (.skip b) := by
  refine ⟨rfl, fun c bs h e => ?_⟩
  cases e
  simpa [Instr.wellFormed, syncBit] using h

theorem sync (b : Byte) : Statement (.sync b) := by
  refine ⟨rfl, fun c bs h e => ?_⟩
  cases e
  exact ⟨nofun, fun _ => h⟩

theorem collect1 (b : Byte) : Statement (.collect1 b) := by
  refine ⟨rfl, fun c bs _ e => ?_⟩
  cases e
  exact ⟨nofun, fun _ => rfl⟩

theorem collect2 (b : Byte) : Statement (.collect2 b) := by
  refine ⟨rfl, fun c bs _ e => ?_⟩
  cases e
  exact ⟨nofun, fun _ => rfl⟩

theorem frame (y x : Address) (pol : Bool) (t : Short) : Statement (.frame y x pol t) := by
  refine ⟨rfl, fun c bs _ e => ?_⟩
  cases e
  refine ⟨nofun, fun _ => ?_⟩
  rw [syncBit, BitVec.getLsbD_append]
  rfl

theorem resetReq : Statement .resetReq :=
  ⟨rfl, fun _ _ _ e => nomatch e⟩

end Sys2Proof.Laws.StreamLength
end

