-- ==== Sys2Proof/Laws/Trace.lean ====
section
/-! SUPPORT. Runs: one edge more, one stream after another, and that what a stream sends depends on the registers it
starts from and on nothing else of the state. -/

namespace Sys2Proof.Machine

/-! ## Cycles -/

theorem cycles_one {s t : State} (h : step s = .next t) : cycles 1 s = t := by
  simp [cycles, h]

theorem cycles_succ (n : Nat) (s : State) : cycles (n + 1) s = cycles n (cycles 1 s) := by
  obtain ⟨t, h⟩ := step_next s
  simp [cycles, h]

/-- One step more of a run behind the host's interface. -/
theorem core_run_succ (M : Host.Core) {s t : M.State} {n : Nat} (h : M.step s = .next t) :
    M.run (n + 1) s = M.run n t := by
  conv_lhs => unfold Host.Core.run
  rw [h]

/-! ## Streams -/

theorem select_before (it : StreamItem) (s : State) : it.txn.select (it.before s) = it.txn.select s := by
  cases h : it.txn <;> rfl

theorem streamRun_append (front back : List StreamItem) (s : State) :
    streamRun (front ++ back) s =
      ((streamRun front s).1.append (streamRun back (streamRun front s).2).1,
        (streamRun back (streamRun front s).2).2) := by
  induction front generalizing s with
  | nil => simp [streamRun, Sent.nothing, Sent.append]
  | cons it front ih =>
    obtain ⟨s', e⟩ := exec_next (it.txn.select (it.before s)) (it.before s)
    simp only [List.cons_append, streamRun, transact, e, ih]
    simp [Sent.append, List.append_assoc, Nat.add_assoc]

/-! ## What an operation reads -/

theorem State.registers_eq_iff (s u : State) : s.registers = u.registers ↔
    s.params = u.params ∧ s.phase = u.phase ∧ s.fb0 = u.fb0 ∧ s.fb1 = u.fb1 ∧ s.fb2 = u.fb2 ∧
    s.resetPending = u.resetPending ∧ s.tb = u.tb ∧ s.cnt = u.cnt := by
  simp [State.registers]

/-- Two states that an operation cannot tell apart: same registers, same configuration, same strobes. -/
structure SameInputs (s u : State) : Prop where
  regs : s.registers = u.registers
  sizeX : s.pins.cfgSizeX = u.pins.cfgSizeX
  sizeY : s.pins.cfgSizeY = u.pins.cfgSizeY
  strobes : s.strobes = u.strobes

theorem select_of_registers (t : Transaction) {s u : State} (h : s.registers = u.registers) :
    t.select s = t.select u := by
  obtain ⟨-, h2, h3, h4, h5, -⟩ := (State.registers_eq_iff s u).1 h
  cases t <;> simp [Transaction.select, h2, h3, h4, h5]

/-- An operation reads neither the output register nor the other pins: it does the same in both states, and either leaves
each output register or loads the same event into both. -/
theorem exec_sameInputs (i : Instr) {s u s' u' : State} (h : SameInputs s u)
    (hs : exec i s = .next s') (hu : exec i u = .next u') :
    SameInputs s' u' ∧
      ((s'.out = s.out ∧ u'.out = u.out) ∨ (s'.out = u'.out ∧ s'.out.valid = true)) := by
  obtain ⟨hr, hx, hy, hst⟩ := h
  obtain ⟨h1, h2, h3, h4, h5, h6, h7, h8⟩ := (State.registers_eq_iff s u).1 hr
  cases i with
  | frame y x pol t =>
    have fs : execFrame y x pol t s = .next s' := hs
    have fu : execFrame y x pol t u = .next u' := hu
    by_cases hp : s.resetPending = true
    · rcases execFrame_cases y x pol t s with ⟨-, e⟩ | ⟨c, -⟩ | ⟨c, -⟩ <;>
        [skip; simp [hp] at c; simp [hp] at c]
      rcases execFrame_cases y x pol t u with ⟨-, e'⟩ | ⟨c, -⟩ | ⟨c, -⟩ <;>
        [skip; simp [← h6, hp] at c; simp [← h6, hp] at c]
      rw [fs] at e; rw [fu] at e'; cases e; cases e'
      exact ⟨⟨by simp [State.registers, State.applyReset, h1, h3, h4, h5, h8], hx, hy,
        by simp [State.applyReset, hst]⟩, .inr ⟨by simp [h1], rfl⟩⟩
    · replace hp : s.resetPending = false := by simpa using hp
      by_cases hc : t.toNat < s.tb.lastShort.toNat ∧ ceilingNat s.params < s.tb.wrapAdd.toNat + 65536
      · rcases execFrame_cases y x pol t s with ⟨c, -⟩ | ⟨-, -, -, e⟩ | ⟨-, c, -⟩ <;>
          [simp [hp] at c; skip; exact absurd hc c]
        rcases execFrame_cases y x pol t u with ⟨c, -⟩ | ⟨-, -, -, e'⟩ | ⟨-, c, -⟩ <;>
          [simp [← h6, hp] at c; skip; exact absurd (h1 ▸ h7 ▸ hc) c]
        rw [fs] at e; rw [fu] at e'; cases e; cases e'
        exact ⟨⟨by simp [State.registers, h1, h3, h4, h5, h6, h7, h8], hx, hy, by simp [hst]⟩,
          .inr ⟨rfl, rfl⟩⟩
      · obtain ⟨q, e, a1, a2, a3, a4, a5, a6, a7, a8, a9, a10, a11, -⟩ :=
          execFrame_tracked (y := y) (x := x) (pol := pol) hp hc
        obtain ⟨q', e', b1, b2, b3, b4, b5, b6, b7, b8, b9, b10, b11, -⟩ :=
          execFrame_tracked (y := y) (x := x) (pol := pol) (s := u) (h6 ▸ hp) (h7 ▸ h1 ▸ hc)
        rw [fs] at e; rw [fu] at e'; cases e; cases e'
        have hi : inRange y x s.pins = inRange y x u.pins := by simp [inRange, hx, hy]
        refine ⟨⟨?_, by rw [a11, b11, hx], by rw [a11, b11, hy], by rw [a9, b9, h7, hi, hst]⟩, ?_⟩
        · simp [State.registers, a1, a2, a3, a4, a5, a6, a7, a8, b1, b2, b3, b4, b5, b6, b7, b8, h1,
            h3, h4, h5, h7, h8, hi]
        · rw [a10, b10, hi]
          split
          · exact .inr ⟨by rw [h7], rfl⟩
          · exact .inl ⟨rfl, rfl⟩
  | _ =>
    cases hs
    cases hu
    exact ⟨⟨by simp [State.registers, h1, h2, h3, h4, h5, h6, h7, h8], by simpa using hx,
      by simpa using hy, by simp [hst]⟩, .inl ⟨rfl, rfl⟩⟩

/-- What a stream sends, and the registers it leaves, depend on the registers it starts from only. -/
theorem streamRun_of_registers (items : List StreamItem) {s u : State} (h : s.registers = u.registers) :
    (streamRun items s).1 = (streamRun items u).1 ∧
      (streamRun items s).2.registers = (streamRun items u).2.registers := by
  induction items generalizing s u with
  | nil => exact ⟨rfl, h⟩
  | cons it rest ih =>
    have hsim : SameInputs (it.before s) (it.before u) := ⟨h, rfl, rfl, rfl⟩
    obtain ⟨s', e⟩ := exec_next (it.txn.select (it.before s)) (it.before s)
    obtain ⟨u', e'⟩ := exec_next (it.txn.select (it.before u)) (it.before u)
    have e2 := e
    rw [select_of_registers it.txn hsim.regs] at e2
    obtain ⟨g1, g2⟩ := exec_sameInputs _ hsim e2 e'
    simp only [streamRun, transact, e, e']
    obtain ⟨i1, i2⟩ := ih g1.regs
    have hp : s'.presented = u'.presented := by
      rcases g2 with ⟨g, g'⟩ | ⟨g, g'⟩
      · simp [State.presented, g, g', StreamItem.before]
      · simp [State.presented, g]
    exact ⟨by rw [i1, g1.strobes, hp], i2⟩

end Sys2Proof.Machine
end

