-- ==== Sys2Proof/Tests/Slice0.lean ====
section
/-! SUPPORT. Tests of one step or one decoding each, with expected values from spec/95_test_vectors.md or worked out by
hand from the rule named, and, for every statement with hypotheses, a state and operands that meet them. -/

namespace Sys2Proof.Tests

open Sys2Proof.Machine

/-! ## Helpers -/

/-- The state of the vectors: after hardware reset, resolution 128 by 128, the sink ready. -/
def fresh : State :=
  { State.reset with pins := { Pins.low with cfgSizeX := 128, cfgSizeY := 128, evReady := true } }

/-- `fresh` with this time base. -/
def timed (wo wa : Word) (ls : Short) (la cu : Word) : State := { fresh with tb := ⟨wo, wa, ls, la, cu⟩ }

/-- `fresh` with this resolution. -/
def sized (x y : Short) : State :=
  { fresh with pins := { fresh.pins with cfgSizeX := x, cfgSizeY := y } }

/-- `s` with bytes 0 to 2 held, waiting for byte 3. -/
def held (b0 b1 b2 : Byte) (s : State) : State := { s with phase := .fetch3, fb0 := b0, fb1 := b1, fb2 := b2 }

/-- `s` with a byte offered. -/
def offering (b : Byte) (s : State) : State := { s with pins := { s.pins with inValid := true, inData := b } }

/-- `s` with a request. -/
def asking (s : State) : State := { s with pins := { s.pins with tsResetReq := true } }

/-- `s` in hardware reset. -/
def inReset (s : State) : State := { s with pins := { s.pins with rst := true } }

/-- `s` with an event waiting and the sink not ready. -/
def blocked (s : State) : State :=
  { s with out := ⟨true, pixelEvent 10 1 2 false⟩, pins := { s.pins with evReady := false } }

/-- The outcome is a next state with this property. -/
def gives (o : Host.Outcome State Fault Refusal) (p : State → Bool) : Bool :=
  match o with
  | .next s => p s
  | .fault _ => false
  | .refused _ => false

/-- Both outcomes are next states with this relation. -/
def give2 (o q : Host.Outcome State Fault Refusal) (p : State → State → Bool) : Bool :=
  gives o fun s => gives q fun t => p s t

/-- The outcome is this refusal. -/
def refuses (o : Host.Outcome State Fault Refusal) (r : Refusal) : Bool :=
  match o with
  | .next _ => false
  | .fault _ => false
  | .refused r' => r' == r

/-! ## WellFormed: an ill-formed term for each check is refused (R70, R73) -/

theorem test_skip_of_a_sync_byte_is_ill_formed : (Instr.skip 0x80#8).wellFormed = false := by decide
theorem test_sync_of_a_skip_byte_is_ill_formed : (Instr.sync 0x05#8).wellFormed = false := by decide
theorem test_largest_skip_smallest_sync :
    (Instr.skip 0x7F#8).wellFormed = true ∧ (Instr.sync 0x80#8).wellFormed = true := by decide

/-! ## Decoding: words written out from 30_encoding.md section 2 -/

/-- SKIP `0bbbbbbb` with b = 0000101. -/
theorem test_decode_skip : decodeTableWord 8 0b00000101 = some (.skip 0x05#8) := by decide
/-- SYNC `1yyyyyyy` with y = 0001010. -/
theorem test_decode_sync : decodeTableWord 8 0b10001010 = some (.sync 0x8A#8) := by decide
/-- COLLECT1 `pxxxxxxx` with p = 1, x = 0010011, after a sync byte (16 bits: log entry 7). -/
theorem test_decode_collect1 : decodeTableWord 16 0b10001010_10010011 = some (.collect1 0x93#8) := by decide
/-- COLLECT2 `tttttttt`, the high byte of t = 256 (24 bits: log entry 7). -/
theorem test_decode_collect2 :
    decodeTableWord 24 0b10001010_10010011_00000001 = some (.collect2 0x01#8) := by decide
/-- FRAME `1yyyyyyy pxxxxxxx tttttttt tttttttt`: F(10, 19, 1, 256) of V41-1. -/
theorem test_decode_frame : decodeTableWord 32 0b10001010_10010011_00000001_00000000 =
    some (.frame 10 19 true 256) := by decide
/-- FRAME with every field different in every bit: F(85, 42, 0, 0xA55A). -/
theorem test_decode_frame_alternating :
    decodeTableWord 32 0b11010101_00101010_10100101_01011010 = some (.frame 85 42 false 0xA55A) := by
  decide
/-- RESETREQ has no bits (R68). -/
theorem test_decode_resetReq : decodeTableWord 0 0 = some .resetReq := by decide
/-- More than one byte without a sync bit in the first is no frame (R55). -/
theorem test_decode_rejects_no_sync : decodeStream [0x0A#8, 0x13#8] = .error .noSync := by decide
theorem test_decode_rejects_too_long :
    decodeStream [0x80#8, 0x00#8, 0x00#8, 0x00#8, 0x00#8] = .error .tooLong := by decide
/-- A byte 1 with bit 7 set is a frame byte (R61). -/
theorem test_decode_by_phase : decodeByte .fetch1 0x81#8 0 0 0x80#8 = .collect1 0x80#8 := by decide

/-! ## One step of each operation -/

/-- V40-1, the second row of V43-1: one RESYNC, its strobe for one cycle, phase 0. -/
theorem test_skip : gives (step (offering 0x05#8 fresh)) (fun t =>
    t.cnt.resync == 1 && t.strobes.stResync && t.phase == .scan && !t.out.valid) := by decide
/-- `cnt_resync` wraps from 0xFFFFFFFF to 0 (R76). -/
theorem test_skip_counter_wraps : gives (step (offering 0x7F#8
    { fresh with cnt := ⟨0xFFFFFFFF, 0, 0⟩ })) (fun t => t.cnt.resync == 0) := by decide
/-- V40-3. -/
theorem test_sync : gives (step (offering 0x80#8 fresh)) (fun t =>
    t.phase == .fetch1 && t.fb0 == 0x80#8 && t.cnt.resync == 0) := by decide
/-- The example of R78. -/
theorem test_collect1 : gives (step (offering 0x93#8 { fresh with phase := .fetch1, fb0 := 0x8A })) (fun t =>
    t.phase == .fetch2 && t.fb1 == 0x93#8 && t.fb0 == 0x8A#8) := by decide
/-- V40-6's byte 0x80 at phase 2 is data, not a sync byte. -/
theorem test_collect2 : gives (step (offering 0x80#8 { fresh with phase := .fetch2 })) (fun t =>
    t.phase == .fetch3 && t.fb2 == 0x80#8 && t.cnt.resync == 0) := by decide
/-- V41-1, the cycle of V43-1 after the FRAME byte: PIX(256, 19, 10, 1). -/
theorem test_frame_pixel : gives (step (offering 0x00#8 (held 0x8A 0x93 0x01 fresh))) (fun t =>
    t.out == ⟨true, ⟨0, 256, 19, 10, true, false⟩⟩ && t.phase == .scan && t.tb == ⟨0, 0, 256, 0, 256⟩) := by
  decide
/-- V41-5: X = 100 at a resolution of 100 is dropped, and time moves. -/
theorem test_frame_drop : gives (step (offering 0x2A#8 (held 0x80 0x64 0x00 (sized 100 100)))) (fun t =>
    !t.out.valid && t.cnt.drop == 1 && t.strobes.stDrop && t.tb == ⟨0, 0, 42, 0, 42⟩) := by decide
/-- V42-15. -/
theorem test_resetReq : gives (step (asking fresh)) (fun t =>
    t.resetPending && !t.strobes.cmdTsReset && t.tb == TimeBase.zero && !t.out.valid) := by decide
/-- V43-3, cycle 3 to 4: a request at the edge of byte 3 makes that frame the reset frame. -/
theorem test_resetReq_at_byte_three : gives (step (asking (offering 0x64#8 (held 0x85 0x06 0x00 fresh)))) (fun t =>
    t.out == ⟨true, ⟨2, 0x7FFFFFFF, 0, 0, false, true⟩⟩ && t.strobes.cmdTsReset && !t.resetPending) := by
  decide

/-! ## The timestamp reconstructor, one frame each -/

/-- V42-7: the last normal wrap at the default ceiling. -/
theorem test_last_normal_wrap :
    gives (exec (.frame 0 0 false 5) (timed 0 0x7FFE0000 0xFFF0 0x7FFEFFF0 0x7FFEFFF0)) (fun t =>
      t.out.ev.ts == 0x7FFF0005 && t.tb == ⟨0, 0x7FFF0000, 0, 0x7FFEFFF0, 0x7FFF0005⟩) := by decide
/-- V42-8 and V42-12: the big wrap, and `wrap_overflow` modulo 2^32. -/
theorem test_big_wrap :
    gives (exec (.frame 0 0 false 5) (timed 0xFFFFFFFF 0x7FFF0000 0xFFF0 0x7FFFFFF0 0x7FFFFFF0)) (fun t =>
      t.out.ev == ⟨1, 0x7FFFFFFF, 0, 0, false, true⟩ && t.tb == ⟨0, 0, 0, 0, 0⟩) := by decide
/-- V42-9: the same at the other ceiling is a normal wrap. -/
theorem test_normal_wrap_unsigned :
    gives (exec (.frame 0 0 false 5) { timed 0 0x7FFF0000 0xFFF0 0x7FFFFFF0 0x7FFFFFF0 with
      params := ⟨.unsigned, 0x7FFFFFFF⟩ }) (fun t =>
      t.out.ev.ts == 0x80000005 && t.out.ev.kind == 0 && t.tb.wrapAdd == 0x80000000) := by decide
/-- V42-11: the big wrap at the other ceiling, whose test must not wrap 32 bits. -/
theorem test_big_wrap_unsigned :
    gives (exec (.frame 0 0 false 5) { timed 0 0xFFFF0000 0xFFF0 0xFFFFFFF0 0xFFFFFFF0 with
      params := ⟨.unsigned, 0x7FFFFFFF⟩ }) (fun t =>
      t.out.ev == ⟨1, 0x7FFFFFFF, 0, 0, false, true⟩ && t.tb == ⟨1, 0, 0, 0, 0⟩) := by decide
/-- V41-13, third frame: MONO_WARN and RANGE_DROP at once. -/
theorem test_mono_and_drop :
    gives (exec (.frame 0 120 false 1) { timed 0 0x10000 0 65530 65538 with
      pins := (sized 100 100).pins }) (fun t =>
      t.strobes.stMono && t.strobes.stDrop && t.cnt == ⟨0, 1, 1⟩ && t.tb == ⟨0, 0x10000, 1, 65538, 65537⟩) := by
  decide
/-- V42-13 and V42-18: a reset frame, with RESET_EVENT_TS = 0. -/
theorem test_reset_frame :
    gives (exec (.frame 3 4 true 500) { timed 0 0x10000 100 65600 65636 with
      resetPending := true, params := ⟨.signed, 0⟩ }) (fun t =>
      t.out.ev == ⟨2, 0, 0, 0, false, true⟩ && t.tb == TimeBase.zero && !t.resetPending &&
        t.strobes.cmdTsReset) := by decide

/-! ## The ports -/

/-- V43-2, cycle 4: an untaken event blocks the byte. -/
theorem test_backpressure : (blocked (offering 0x83#8 fresh)).inReady = false ∧
    gives (step (blocked (offering 0x83#8 fresh))) (fun t =>
      t.phase == .scan && t.out == ⟨true, ⟨0, 10, 2, 1, false, false⟩⟩ && t.pins.inValid) = true := by decide
/-- V43-2, cycle 6: the event is transferred and the byte taken at one edge. -/
theorem test_transfer_and_take : gives (step { blocked (offering 0x83#8 fresh) with
    pins := (offering 0x83#8 fresh).pins }) (fun t => t.phase == .fetch1 && !t.out.valid) := by decide
/-- V43-4, cycle 2: a hardware reset discards the partial frame, a pending request and a presented event. -/
theorem test_hardware_reset : gives (step (inReset (asking (offering 0x85#8 { blocked fresh with
    phase := .fetch2, fb0 := 0x85, resetPending := true, cnt := ⟨3, 2, 1⟩ })))) (fun t =>
      decide t.AtReset) := by decide
theorem test_reset_state : State.reset.AtReset := by decide

/-! ## Refusals -/

/-- R8. -/
theorem test_illegal_ceiling :
    refuses (State.build 0x7FFFFFFE 0) (.illegalWrapCeiling 0x7FFFFFFE) = true ∧
    refuses (State.build 0x80000000 0) (.illegalWrapCeiling 0x80000000) = true := by decide
theorem test_legal_ceilings :
    gives (State.build 0x7FFFFFFF 7) (fun s => s.params.resetEventTs == 7) = true ∧
    gives (State.build 0xFFFFFFFF 7) (fun s => ceilingNat s.params == 0xFFFFFFFF) = true := by decide
/-- R67. -/
theorem test_sink_refuses_kind_three :
    (match Sink.append ⟨3, 0, 0, 0, false, false⟩ ⟨[], []⟩ with
      | .refused r => r == .reservedEventKind
      | _ => false) = true := by decide
/-- 93_implementation_defined.md section 2: a byte changed while it was not taken. -/
theorem test_withdrawn_byte : refuses (checkedStep { blocked (offering 0x83#8 fresh) with
    inputs := [(offering 0x84#8 fresh).pins] }) .byteWithdrawn = true := by decide

/-! ## Placing a word -/

/-- FRAME placed after reset is what the next step runs; reset has resolution 0 by 0, so it is dropped. -/
theorem test_placed_frame : gives (step (State.reset.withFetchWord 32 0x8A930100)) (fun t =>
    t.tb.current == 256 && t.cnt.drop == 1) := by decide
theorem test_placed_request : gives (step (State.reset.withFetchWord 0 0)) (fun t =>
    t.resetPending) := by decide

/-! ## Witnesses: states and operands that meet the hypotheses of the statements of the same name -/

theorem witness_ResetLeavesTheSpecsValues :
    (inReset (held 0x8A 0x93 0x01 (timed 1 2 3 4 5))).pins.rst = true := by decide
theorem witness_NothingIsTakenDuringReset :
    (inReset fresh).pins.rst = true ∧ (inReset (offering 0x80#8 fresh)).pins.rst = true ∧
    gives (step { inReset fresh with inputs := [(asking (offering 0x80#8 fresh)).pins] }) (fun t =>
      !t.pins.rst && t.pins.inValid && t.pins.tsResetReq) = true := by decide
theorem witness_OnlyTwoCeilingsAreLegal :
    (0x7FFFFFFF#32 = 0x7FFFFFFF#32 ∨ 0x7FFFFFFF#32 = 0xFFFFFFFF#32) ∧
    (0xFFFFFFFF#32 = 0x7FFFFFFF#32 ∨ 0xFFFFFFFF#32 = 0xFFFFFFFF#32) ∧
    ¬(0xFFFFFFFE#32 = 0x7FFFFFFF#32 ∨ 0xFFFFFFFE#32 = 0xFFFFFFFF#32) := by decide
theorem witness_SynchronizerSelectsByPhase :
    isFrame (.skip 0x7F#8) = false ∧ Instr.skip 0x7F#8 ≠ .resetReq ∧ ¬128 ≤ (0x7F#8).toNat ∧
    128 ≤ (0x80#8).toNat ∧ (timed 0 0 0 0 0).phase = .scan ∧ (held 0 0 0 fresh).phase = .fetch3 := by decide
theorem witness_RawFrameWordLayout :
    0xFFFFFFFF < 2 ^ 32 ∧ 2 ^ 31 ≤ 0x80000000 ∧ ¬2 ^ 31 ≤ 0x7FFFFFFF := by decide
theorem witness_DecodeOfEncodeIsTheInstruction :
    (Instr.skip 0x7F#8).wellFormed = true ∧ (Instr.sync 0x80#8).wellFormed = true ∧
    (Instr.collect1 0xFF#8).wellFormed = true ∧ (Instr.collect2 0x00#8).wellFormed = true ∧
    (Instr.frame 127 0 true 0xFFFF).wellFormed = true ∧ Instr.resetReq.wellFormed = true := by decide
theorem witness_EveryFrameWordReencodes : 2 ^ 31 ≤ 0xFFFFFFFF ∧ 0xFFFFFFFF < 2 ^ 32 := by decide
theorem witness_EncodedBytesSelectTheInstruction :
    (Instr.frame 10 19 true 256).wellFormed = true ∧ Instr.frame 10 19 true 256 ≠ .resetReq ∧
    fresh.phase = .scan := by decide
theorem witness_StepRunsTheDecodedInstruction :
    ((offering 0x80#8 fresh).pins.rst = false ∧ (offering 0x80#8 fresh).pins.tsResetReq = false ∧
      (offering 0x80#8 fresh).byteTaken = true) ∧
    ((asking fresh).pins.rst = false ∧ (asking fresh).pins.tsResetReq = true ∧ (asking fresh).byteTaken = false) ∧
    ((asking (offering 0x80#8 fresh)).pins.rst = false ∧ (asking (offering 0x80#8 fresh)).pins.tsResetReq = true ∧
      (asking (offering 0x80#8 fresh)).byteTaken = true) ∧
    (fresh.pins.rst = false ∧ fresh.pins.tsResetReq = false ∧ fresh.byteTaken = false) := by decide
theorem witness_PlacedWordIsRun : decodeTableWord 32 0xFFFFFFFF = some (.frame 127 127 true 0xFFFF) := by decide
theorem witness_StepNeverStops :
    ((offering 0x80#8 fresh).pins.rst = false ∧ (offering 0x80#8 fresh).pins.inValid = true) ∧
    (blocked (offering 0x80#8 fresh)).byteTaken = false := by decide
theorem witness_SkipRaisesOneResync : (Instr.skip 0x7F#8).wellFormed = true ∧ fresh.phase = .scan ∧
    ∀ b ∈ [0x00#8, 0x7F#8], syncBit b = false := by decide
theorem witness_SyncHoldsByteZero : (Instr.sync 0x80#8).wellFormed = true := by decide
theorem witness_RequestSetsTheLatch :
    ({ fresh with resetPending := true } : State).resetPending = true := by decide
theorem witness_ResetFrame :
    ({ timed 0 0x10000 100 65600 65636 with resetPending := true } : State).resetPending = true := by decide
/-- Both ceilings, at the largest `wrap_add`, and just below it. -/
theorem witness_BigWrapFrame :
    (let s := timed 0 0x7FFF0000 0xFFF0 0x7FFFFFF0 0x7FFFFFF0
     s.Inv ∧ s.resetPending = false ∧ (5#16).toNat < s.tb.lastShort.toNat ∧
       ceilingNat s.params < s.tb.wrapAdd.toNat + 65536) ∧
    (let s : State := { timed 0 0xFFFF0000 0xFFF0 0xFFFFFFF0 0xFFFFFFF0 with params := ⟨.unsigned, 0⟩ }
     s.Inv ∧ s.resetPending = false ∧ (5#16).toNat < s.tb.lastShort.toNat ∧
       ceilingNat s.params < s.tb.wrapAdd.toNat + 65536) ∧
    (let s := timed 0 0x7FFE0000 0xFFF0 0x7FFEFFF0 0x7FFEFFF0
     s.Inv ∧ ¬ceilingNat s.params < s.tb.wrapAdd.toNat + 65536) := by decide
/-- A normal wrap at the last `wrap_add` that allows one, and no wrap at the largest. -/
theorem witness_TrackedFrame :
    (let s := timed 0 0x7FFE0000 0xFFF0 0x7FFEFFF0 0x7FFEFFF0
     s.resetPending = false ∧ ¬((5#16).toNat < s.tb.lastShort.toNat ∧
       ceilingNat s.params < s.tb.wrapAdd.toNat + 65536)) ∧
    (let s := timed 0 0x7FFF0000 0xFFF0 0x7FFFFFF0 0x7FFFFFF0
     s.resetPending = false ∧ ¬((0xFFF0#16).toNat < s.tb.lastShort.toNat ∧
       ceilingNat s.params < s.tb.wrapAdd.toNat + 65536)) := by decide
/-- One state for each of the four outcomes. -/
theorem witness_FrameOutcomesAndPayloads :
    ({ fresh with resetPending := true } : State).resetPending = true ∧
    (let s := timed 0 0x7FFF0000 1 0x7FFF0001 0x7FFF0001
     s.resetPending = false ∧ (0#16).toNat < s.tb.lastShort.toNat ∧
       ceilingNat s.params < s.tb.wrapAdd.toNat + 65536) ∧
    (fresh.resetPending = false ∧ ¬(0#16).toNat < fresh.tb.lastShort.toNat ∧
      (127#7).toNat < fresh.pins.cfgSizeX.toNat ∧ (127#7).toNat < fresh.pins.cfgSizeY.toNat) ∧
    ¬(127#7).toNat < (sized 127 128).pins.cfgSizeX.toNat := by decide
/-- For each premise of the statement, an operation and a state in which that register changes. -/
theorem witness_EachRegisterHasItsWriters :
    gives (exec (.sync 0x8A#8) fresh) (fun r => r.phase != fresh.phase && r.fb0 != fresh.fb0) = true ∧
    gives (exec (.collect1 0x93#8) fresh) (fun r => r.fb1 != fresh.fb1) = true ∧
    gives (exec (.collect2 0x01#8) fresh) (fun r => r.fb2 != fresh.fb2) = true ∧
    gives (exec .resetReq fresh) (fun r => !fresh.resetPending && r.resetPending) = true ∧
    gives (exec (.frame 0 0 true 9) { fresh with resetPending := true, tb := ⟨1, 0, 0, 0, 0⟩ }) (fun r =>
      !r.resetPending && r.tb != ⟨1, 0, 0, 0, 0⟩ && r.strobes.cmdTsReset && r.out != fresh.out) = true ∧
    gives (exec (.skip 0x05#8) fresh) (fun r => r.cnt.resync != 0 && r.strobes.stResync) = true ∧
    gives (exec (.frame 0 0 true 1) { timed 0 0x10000 0 65530 65538 with pins := Pins.low }) (fun r =>
      r.cnt.drop != 0 && r.cnt.mono != 0 && r.strobes.stDrop && r.strobes.stMono) = true := by decide
theorem witness_NormalWrapNeverWarns :
    let s := timed 0 0x7FFE0000 0xFFF0 0x7FFEFFF0 0x7FFEFFF0
    s.Inv ∧ s.resetPending = false ∧ (0xFFEF#16).toNat < s.tb.lastShort.toNat ∧
      s.tb.wrapAdd.toNat + 65536 ≤ ceilingNat s.params := by decide
/-- V42-6's second and third frame: a normal wrap, then a warning; and an equal timestamp, which raises none. -/
theorem witness_MonoWarnOnlyAfterANormalWrap :
    (timed 0 0 100 0 100).Inv ∧
    gives (exec (.frame 0 0 false 50) (timed 0 0 100 0 100)) (fun r =>
      gives (exec (.frame 0 0 false 40) r) (fun q => q.cnt.mono != r.cnt.mono) &&
      gives (exec (.frame 0 0 false 50) r) (fun q => q.cnt.mono == r.cnt.mono)) = true := by decide
/-- V42-2. -/
theorem witness_EqualTimestampsRaiseNothing :
    fresh.resetPending = false ∧
    ¬((7#16).toNat < fresh.tb.lastShort.toNat ∧ ceilingNat fresh.params < fresh.tb.wrapAdd.toNat + 65536) ∧
    gives (exec (.frame 0 0 false 7) fresh) (fun r => gives (exec (.frame 0 0 false 7) r) fun _ => true) = true := by
  decide
theorem witness_SourceWrapExample : fresh.resetPending = false ∧ fresh.tb = ⟨0, 0, 0, 0, 0⟩ := by decide
/-- The short timestamps of V42-6, at reset and after one big wrap. -/
theorem witness_FallingTimestampsWrapTwice :
    (fresh.resetPending = false ∧ fresh.tb = ⟨0, 0, 0, 0, 0⟩ ∧ 50#16 < 100#16 ∧ 40#16 < 50#16 ∧ 30#16 < 40#16) ∧
    ((timed 1 0 0 0 0).resetPending = false ∧ (timed 1 0 0 0 0).tb = ⟨1, 0, 0, 0, 0⟩) := by decide
theorem witness_EpochStartsAtZero :
    (let s : State := { timed 3 0x10000 100 65600 65636 with resetPending := true }
     s.resetPending = true ∧ gives (exec (.frame 3 4 true 500) s) (fun _ => true) = true) ∧
    (let s := timed 0 0x7FFF0000 0xFFF0 0x7FFFFFF0 0x7FFFFFF0
     (5#16).toNat < s.tb.lastShort.toNat ∧ ceilingNat s.params < s.tb.wrapAdd.toNat + 65536 ∧
       gives (exec (.frame 0 0 true 5) s) (fun _ => true) = true) ∧
    ((inReset fresh).pins.rst = true ∧ gives (step (inReset fresh)) (fun _ => true) = true) := by decide
theorem witness_TimeMovesOnlyWithFrames :
    (let s := asking (offering 0x01#8 { held 0x8A 0x93 0 fresh with phase := .fetch2 })
     s.pins.rst = false ∧ gives (step s) (fun _ => true) = true ∧ ¬(s.byteTaken = true ∧ s.phase = .fetch3)) := by
  decide
theorem witness_InvHoldsAfterReset : gives (State.build 0xFFFFFFFF 7) (fun s => decide s.Inv) = true := by decide
/-- V42-8 as a step. -/
theorem witness_StepKeepsInv :
    let s := offering 0x05#8 (held 0x80 0x00 0x00 (timed 0 0x7FFF0000 0xFFF0 0x7FFFFFF0 0x7FFFFFF0))
    s.Inv ∧ gives (step s) (fun t => decide t.Inv) = true := by decide
theorem witness_TimestampsStayUnderTheCeiling :
    (let s := timed 0 0x7FFF0000 0xFFFF 0x7FFFFFFF 0x7FFFFFFF
     s.Inv ∧ s.params.wrapCeiling = .signed ∧ s.resetPending = false ∧
       ¬((0xFFFF#16).toNat < s.tb.lastShort.toNat ∧ ceilingNat s.params < s.tb.wrapAdd.toNat + 65536)) ∧
    (let s : State := { timed 0 0xFFFF0000 0xFFFF 0xFFFFFFFF 0xFFFFFFFF with params := ⟨.unsigned, 0⟩ }
     s.Inv ∧ s.params.wrapCeiling = .unsigned) := by decide
theorem witness_RequestIsTakenBeforeTheByte :
    ((asking fresh).pins.rst = false ∧ (asking fresh).pins.tsResetReq = true ∧ (asking fresh).byteTaken = false) ∧
    (let s := asking (offering 0x64#8 (held 0x85 0x06 0x00 fresh))
     s.pins.rst = false ∧ s.pins.tsResetReq = true ∧ s.byteTaken = true ∧ s.phase = .fetch3) := by decide
theorem witness_ByteHandshake :
    (blocked fresh).byteTaken = false ∧ (blocked fresh).pins.rst = false ∧ (blocked fresh).pins.tsResetReq = false := by
  decide
/-- The same byte again, and another one. -/
theorem witness_WithdrawnByteIsRefused :
    (let s := blocked (offering 0x83#8 fresh)
     s.pins.inValid = true ∧ s.inReady = false ∧ s.nextPins.inValid = true ∧ s.nextPins.inData = s.pins.inData) ∧
    (let s : State := { blocked (offering 0x83#8 fresh) with inputs := [(offering 0x84#8 fresh).pins] }
     s.pins.inValid = true ∧ s.inReady = false ∧ ¬s.nextPins.inData = s.pins.inData) := by decide
theorem witness_NoEventIsOverwritten :
    ((blocked fresh).pins.rst = false ∧ gives (step (blocked fresh)) (fun t => t.out.valid) = true) ∧
    (let s := offering 0x00#8 (held 0x8A 0x93 0x01 { blocked fresh with pins := fresh.pins })
     s.pins.rst = false ∧ s.byteTaken = true ∧ s.pins.tsResetReq = false ∧ s.out.valid = true ∧
       gives (step s) (fun t => t.out.valid) = true) := by decide
theorem witness_EventHandshake :
    ((blocked fresh).pins.rst = false ∧ (blocked fresh).out.valid = true ∧ (blocked fresh).pins.evReady = false) ∧
    (let s : State := { blocked fresh with pins := fresh.pins }
     s.pins.rst = false ∧ s.out.valid = true ∧ s.pins.evReady = true ∧
       gives (step s) (fun t => t.out == { s.out with valid := false }) = true) ∧
    (fresh.pins.rst = false ∧ fresh.out.valid = false) := by decide
theorem witness_StrobesTellTheLastEdge :
    gives (step (offering 0x05#8 fresh)) (fun t => t.strobes.stResync) = true ∧
    gives (step (offering 0x05#8 (held 0x80 0x00 0x00 { fresh with resetPending := true }))) (fun t =>
      t.strobes.cmdTsReset) = true ∧
    gives (step (offering 0x01#8 (held 0x80 0xF8 0x00 { timed 0 0x10000 0 65530 65538 with
      pins := (sized 100 100).pins }))) (fun t => t.strobes.stMono && t.strobes.stDrop) = true := by decide
theorem witness_CountersCountTheStrobes :
    (offering 0x05#8 fresh).pins.rst = false ∧
    gives (step (offering 0x05#8 { fresh with cnt := ⟨0xFFFFFFFF, 0, 0⟩ })) (fun t => t.cnt.resync == 0) = true := by
  decide
theorem witness_ConfigurationIsReadAtByteThree :
    ¬((offering 0x80#8 fresh).byteTaken = true ∧ (offering 0x80#8 fresh).phase = .fetch3) := by decide
theorem witness_StepKeepsParametersAndMovesInputs :
    ({ fresh with inputs := [Pins.low, fresh.pins] } : State).inputs = Pins.low :: [fresh.pins] ∧
    gives (step { fresh with inputs := [Pins.low, fresh.pins] }) (fun _ => true) = true := by decide
/-- Two edges on a held frame: one with a request, one idle. -/
theorem witness_PartialFrameWaits :
    let s := asking (held 0x85 0x06 0x00 fresh)
    resetLow 2 s = true ∧ (∀ it ∈ itemsTaken 2 s, it.txn = .resetReq) ∧ (itemsTaken 2 s).length = 1 := by decide
/-- A skipped byte, then the FRAME byte of V41-1, then an idle cycle. -/
theorem witness_CyclesAgreeWithTransactions :
    resetLow 2 (offering 0x00#8 (held 0x8A 0x93 0x01 fresh)) = true ∧
    (portsSent 2 (offering 0x00#8 (held 0x8A 0x93 0x01 fresh))).events.length = 1 := by decide
/-- The same byte at once, and after one cycle in which the sink holds back the event before it. -/
theorem witness_DeliveryTimingDoesNotMatter :
    let s := offering 0x83#8 { blocked fresh with pins := fresh.pins }
    let u : State := { blocked (offering 0x83#8 fresh) with inputs := [(offering 0x83#8 fresh).pins] }
    resetLow 1 s = true ∧ resetLow 2 u = true ∧ s.registers = u.registers ∧ s.presented = u.presented ∧
      itemsTaken 1 s = itemsTaken 2 u := by decide
theorem witness_SinkTakesEveryEvent : fresh.Inv := by decide
/-- The first batch of P2, sealed by its reset event, and an open one. -/
theorem witness_BatchesEndAtSeals :
    (match Sink.appendAll [pixelEvent 1000 1 1 false, resetEvent 0x7FFFFFFF, pixelEvent 50 3 3 true] ⟨[], []⟩ with
      | .next k => k == ⟨[pixelEvent 50 3 3 true],
          [[pixelEvent 1000 1 1 false, resetEvent 0x7FFFFFFF]]⟩
      | _ => false) = true := by decide

end Sys2Proof.Tests
end

section
/-! Proofs about the build parameters (00_scope.md R8, R10): which words are a legal WRAP_CEILING, and what
`State.build` answers for a legal word and for any other. -/

namespace Sys2Proof.Machine

open Sys2Proof.Config

/-! ## ceilingOfWord: the inverse of ceilingWord, and nothing beside it -/

@[simp] theorem ceilingOfWord_ceilingWord (c : WrapCeiling) : ceilingOfWord (ceilingWord c) = some c := by
  cases c <;> decide

theorem exists_ceilingWord_iff (v : Word) :
    (∃ c, ceilingWord c = v) ↔ v = 0x7FFFFFFF#32 ∨ v = 0xFFFFFFFF#32 := by
  constructor
  · rintro ⟨_ | _, rfl⟩
    · exact .inl rfl
    · exact .inr rfl
  · rintro (rfl | rfl)
    · exact ⟨.signed, rfl⟩
    · exact ⟨.unsigned, rfl⟩

theorem ceilingOfWord_eq_none {v : Word} (h : ¬∃ c, ceilingWord c = v) : ceilingOfWord v = none := by
  have hs : v ≠ ceilingWord .signed := fun e => h ⟨.signed, e.symm⟩
  have hu : v ≠ ceilingWord .unsigned := fun e => h ⟨.unsigned, e.symm⟩
  rw [ceilingOfWord, if_neg hs, if_neg hu]

/-! ## State.build, per case of the word -/

theorem State.build_ceilingWord (c : WrapCeiling) (r : Word) :
    State.build (ceilingWord c) r = .next { State.reset with params := ⟨c, r⟩ } := by
  rw [State.build, ceilingOfWord_ceilingWord]

theorem State.build_of_illegal {v : Word} (h : ¬∃ c, ceilingWord c = v) (r : Word) :
    State.build v r = .refused (.illegalWrapCeiling v) := by
  rw [State.build, ceilingOfWord_eq_none h]

/-- The table of R160 does not speak of the parameters. -/
theorem State.reset_withParams_atReset (p : Params) : ({ State.reset with params := p } : State).AtReset := by
  show State.reset.AtReset
  decide

/-- Settles O3: the legal words are the images of `ceilingWord`, and `State.build` inverts it or refuses. -/
theorem onlyTwoCeilingsAreLegal : Obligations.OnlyTwoCeilingsAreLegal := by
  refine ⟨State.build_ceilingWord .signed 0x7FFFFFFF, fun v r => ?_⟩
  split
  case isTrue h =>
    obtain ⟨c, rfl⟩ := (exists_ceilingWord_iff v).2 h
    exact ⟨_, State.build_ceilingWord c r, State.reset_withParams_atReset ⟨c, r⟩, rfl, rfl⟩
  case isFalse h => exact State.build_of_illegal (mt (exists_ceilingWord_iff v).1 h) r

end Sys2Proof.Machine
end

section
/-! Proofs about the fields of a completed frame (30_encoding.md R57 to R60; 20_memory.md R43), each as a number. -/

namespace Sys2Proof

/-! ## The fields of a RawFrame, in arithmetic -/

theorem fieldY_toNat (b0 : Byte) : (fieldY b0).toNat = b0.toNat % 128 := by
  simp [fieldY]

theorem fieldX_toNat (b1 : Byte) : (fieldX b1).toNat = b1.toNat % 128 := by
  simp [fieldX]

/-- Bit 7 is the top bit of a byte, so it is set exactly in the upper half of the range. -/
theorem fieldPol_iff (b1 : Byte) : fieldPol b1 = true ↔ 128 ≤ b1.toNat := by
  rw [fieldPol, ← BitVec.msb_eq_getLsbD_last b1, BitVec.msb_eq_decide, decide_eq_true_iff]

theorem fieldT_toNat (b2 b3 : Byte) : (fieldT b2 b3).toNat = 256 * b2.toNat + b3.toNat := by
  rw [fieldT, BitVec.toNat_append, ← Nat.shiftLeft_add_eq_or_of_lt b3.isLt, Nat.shiftLeft_eq, Nat.mul_comm]

end Sys2Proof

namespace Sys2Proof.Machine

/-- Settles O5: at phase 3 the decoder answers `decodeFrame`, whose fields are these numbers. -/
theorem frameFieldsOfFourBytes : Obligations.FrameFieldsOfFourBytes := by
  intro b0 b1 b2 b3
  exact ⟨fieldY b0, fieldX b1, fieldPol b1, fieldT b2 b3, rfl,
    fieldY_toNat b0, fieldX_toNat b1, fieldPol_iff b1, fieldT_toNat b2 b3,
    (zextAddress_toNat _).trans (fieldY_toNat b0), (zextAddress_toNat _).trans (fieldX_toNat b1)⟩

end Sys2Proof.Machine
end

section
/-! Proofs about what a FRAME leaves in the output register (30_encoding.md R66, R72). -/

namespace Sys2Proof.Machine

theorem exec_frame (y x : Address) (pol : Bool) (t : Short) (s : State) :
    exec (.frame y x pol t) s = execFrame y x pol t s := rfl

/-- Settles O21: `execFrame_cases` gives the RESET and WRAP outcomes, `execFrame_tracked` PIXEL and DROP. -/
theorem frameOutcomesAndPayloads : Obligations.FrameOutcomesAndPayloads := by
  intro y x pol t s
  rw [exec_frame]
  rcases execFrame_cases y x pol t s with ⟨hp, e⟩ | ⟨hp, hw, hc, e⟩ | ⟨hp, hn, -⟩
  case inl =>
    refine ⟨_, e, ?_⟩
    rw [if_pos hp]
    rfl
  case inr.inl =>
    refine ⟨_, e, ?_⟩
    rw [if_neg (Bool.eq_false_iff.mp hp), if_pos ⟨hw, hc⟩]
    rfl
  case inr.inr =>
    obtain ⟨r, e, -, -, -, -, -, -, htb, -, -, hout, -, -⟩ := @execFrame_tracked y x pol t s hp hn
    refine ⟨r, e, ?_⟩
    rw [if_neg (Bool.eq_false_iff.mp hp), if_neg hn, hout, htb]
    simp only [inRange_iff]
    split
    · exact ⟨rfl, rfl, rfl, zextAddress_toNat x, zextAddress_toNat y, rfl, rfl⟩
    · rfl

end Sys2Proof.Machine
end

section
/-! Proofs about the frame synchronizer's operations (40_frame_synchronizer.md R75, R77, R78): which one a byte selects,
and what SYNC and the two COLLECT operations leave. -/

namespace Sys2Proof.Machine

/-! ## One equation per operation on bytes 0 to 2 -/

theorem exec_skip (b : Byte) (s : State) : exec (.skip b) s = .next (s.raise .resync) := rfl

theorem exec_sync (b : Byte) (s : State) :
    exec (.sync b) s = .next ((s.setFb0 b).setPhase .fetch1) := rfl

theorem exec_collect1 (b : Byte) (s : State) :
    exec (.collect1 b) s = .next ((s.setFb1 b).setPhase .fetch2) := rfl

theorem exec_collect2 (b : Byte) (s : State) :
    exec (.collect2 b) s = .next ((s.setFb2 b).setPhase .fetch3) := rfl

/-- Settles O15: `fb0` and `phase` are the two fields that `exec_sync` sets. -/
theorem syncHoldsByteZero : Obligations.SyncHoldsByteZero :=
  fun b s _ => exec_sync b s

/-- Settles O16: no hypothesis on the byte, since neither operation reads its bit 7. -/
theorem collectHoldsBytesOneAndTwo : Obligations.CollectHoldsBytesOneAndTwo :=
  fun b s => ⟨exec_collect1 b s, exec_collect2 b s⟩

/-! ## Selection by the phase -/

/-- The sync bit and the polarity are the same bit, each of its own byte. -/
theorem syncBit_iff (b : Byte) : syncBit b = true ↔ 128 ≤ b.toNat := fieldPol_iff b

theorem select_byte (s : State) (b : Byte) :
    (Transaction.byte b).select s = decodeByte s.phase s.fb0 s.fb1 s.fb2 b := rfl

theorem decodeByte_scan (fb0 fb1 fb2 b : Byte) :
    decodeByte .scan fb0 fb1 fb2 b = if 128 ≤ b.toNat then .sync b else .skip b := by
  simp only [decodeByte, syncBit_iff]

/-- Settles O4: the decoder's four rows; then each operation but FRAME and RESETREQ writes its own fields from its byte
alone, whatever the latch, the time base and the configuration are. -/
theorem synchronizerSelectsByPhase : Obligations.SynchronizerSelectsByPhase := by
  refine ⟨fun s b => ?_, fun i s rp tb cx cy hframe hreq => ?_⟩
  · rw [select_byte]
    cases s.phase with
    | scan => exact decodeByte_scan s.fb0 s.fb1 s.fb2 b
    | fetch1 => rfl
    | fetch2 => rfl
    | fetch3 => rfl
  · cases i with
    | skip b => exact ⟨_, exec_skip b s, rfl⟩
    | sync b => exact ⟨_, exec_sync b s, rfl⟩
    | collect1 b => exact ⟨_, exec_collect1 b s, rfl⟩
    | collect2 b => exact ⟨_, exec_collect2 b s, rfl⟩
    | frame y x pol t => cases hframe
    | resetReq => exact absurd rfl hreq

end Sys2Proof.Machine
end

section
/-! Proofs about skipped bytes (40_frame_synchronizer.md R76): one SKIP, and a run of non-sync bytes as one stream. -/

namespace Sys2Proof.Machine

theorem transact_skip {s : State} {b : Byte} (hs : s.phase = .scan) (hb : syncBit b = false) :
    transact (.byte b) s = .next (s.raise .resync) := by
  rw [transact, select_byte, hs, decodeByte, hb, if_neg Bool.false_ne_true, exec_skip]

/-- A non-sync byte at the head of a stream at phase 0 sends one RESYNC, and the stream goes on from there. -/
theorem streamRun_skip_cons {s : State} {b : Byte} (hs : s.phase = .scan) (hb : syncBit b = false)
    (sx sy : Short) (bytes : List Byte) :
    ∃ s', s'.registers = { s.registers with cnt := { s.cnt with resync := s.cnt.resync + 1 } } ∧
      streamRun (byteStream sx sy (b :: bytes)) s =
        (Sent.append ⟨[], 0, [.resync]⟩ (streamRun (byteStream sx sy bytes) s').1,
          (streamRun (byteStream sx sy bytes) s').2) := by
  have htake : transact (.byte b) (StreamItem.before ⟨.byte b, sx, sy⟩ s) =
      .next ((StreamItem.before ⟨.byte b, sx, sy⟩ s).raise .resync) := transact_skip hs hb
  refine ⟨(StreamItem.before ⟨.byte b, sx, sy⟩ s).raise .resync, rfl, ?_⟩
  rw [byteStream, List.map_cons, streamRun, htake]
  rfl

/-- A run of non-sync bytes from phase 0: every byte is a SKIP, so phase 0 and all registers but `cnt_resync` stay. -/
theorem streamRun_skips (bytes : List Byte) (s : State) (sx sy : Short) (hs : s.phase = .scan)
    (hbytes : ∀ b ∈ bytes, syncBit b = false) :
    (streamRun (byteStream sx sy bytes) s).1 = ⟨[], 0, List.replicate bytes.length .resync⟩ ∧
    (streamRun (byteStream sx sy bytes) s).2.registers =
      { s.registers with
        cnt := { s.cnt with resync := s.cnt.resync + BitVec.ofNat 32 bytes.length } } := by
  induction bytes generalizing s with
  | nil => exact ⟨rfl, by simp [byteStream, streamRun, State.registers]⟩
  | cons b bytes ih =>
    obtain ⟨hb, hrest⟩ := List.forall_mem_cons.1 hbytes
    obtain ⟨s', hregs, hrun⟩ := streamRun_skip_cons hs hb sx sy bytes
    have hphase : s'.phase = .scan := (congrArg Registers.phase hregs).trans hs
    have hcnt : s'.cnt = { s.cnt with resync := s.cnt.resync + 1 } := congrArg Registers.cnt hregs
    obtain ⟨ihsent, ihregs⟩ := ih s' hphase hrest
    rw [hrun]
    refine ⟨?_, ?_⟩
    · rw [ihsent]
      simp [Sent.append, List.replicate_succ]
    · have hadd : s.cnt.resync + 1 + BitVec.ofNat 32 bytes.length =
          s.cnt.resync + BitVec.ofNat 32 (bytes.length + 1) := by
        rw [Nat.add_comm, BitVec.ofNat_add, BitVec.add_assoc]
        rfl
      rw [ihregs, hregs, hcnt, List.length_cons, ← hadd]

/-- Settles O14: `exec_skip` for one byte, and `streamRun_skips`, by induction on the run, for n. -/
theorem skipRaisesOneResync : Obligations.SkipRaisesOneResync :=
  ⟨fun b s _ => exec_skip b s, streamRun_skips⟩

end Sys2Proof.Machine
end

section
/-! Proofs about bytes that are not taken (40_frame_synchronizer.md R80, R83): when an offered byte waits, and what the
edges between two bytes of a frame keep. -/

namespace Sys2Proof.Machine

/-! ## When a byte is taken -/

theorem State.byteTaken_eq_false_iff {s : State} (hrst : s.pins.rst = false) (hvalid : s.pins.inValid = true) :
    s.byteTaken = false ↔ s.out.valid = true ∧ s.pins.evReady = false := by
  rw [State.byteTaken, State.inReady, hrst, hvalid]
  simp

/-- Settles O13: `exec_next`, `step_next`, and `in_ready` of R122 with `rst` low. -/
theorem stepNeverStops : Obligations.StepNeverStops :=
  ⟨exec_next, step_next, fun _ => State.byteTaken_eq_false_iff⟩

/-- A taken byte is an item of its edge, so an edge whose items are requests takes none. -/
theorem State.byteTaken_eq_false_of_requests {s : State} (hrst : s.pins.rst = false)
    (hreqs : ∀ it ∈ s.edgeItems, it.txn = .resetReq) : s.byteTaken = false := by
  by_contra hb
  rw [Bool.not_eq_false] at hb
  have hmem : Transaction.byte s.pins.inData ∈ s.transactions := by
    simp [State.transactions_of_running hrst, hb]
  cases hreqs _ (List.mem_map_of_mem hmem)

/-! ## What the edges between two bytes keep -/

/-- The frame in progress: how many bytes are held, and the held bytes (R21, R22). -/
def State.partialFrame (s : State) : Phase × Byte × Byte × Byte := (s.phase, s.fb0, s.fb1, s.fb2)

theorem State.partialFrame_eq_iff (s u : State) : s.partialFrame = u.partialFrame ↔
    s.phase = u.phase ∧ s.fb0 = u.fb0 ∧ s.fb1 = u.fb1 ∧ s.fb2 = u.fb2 := by
  simp [State.partialFrame]

theorem partialFrame_cycles_one {s : State} (hrst : s.pins.rst = false) (hb : s.byteTaken = false) :
    (cycles 1 s).partialFrame = s.partialFrame := by
  have hstep : step s = .next (s.drive s.afterRequest) := by
    rw [step_running_eq hrst, hb, if_neg Bool.false_ne_true]
  rw [cycles_one hstep]
  simp [State.partialFrame]

theorem resetLow_succ (n : Nat) (s : State) :
    resetLow (n + 1) s = true ↔ s.pins.rst = false ∧ resetLow n (cycles 1 s) = true := by
  simp [resetLow]

theorem partialFrame_cycles (n : Nat) (s : State) (hlow : resetLow n s = true)
    (hreqs : ∀ it ∈ itemsTaken n s, it.txn = .resetReq) :
    (cycles n s).partialFrame = s.partialFrame := by
  induction n generalizing s with
  | zero => rfl
  | succ n ih =>
    obtain ⟨hrst, hlow'⟩ := (resetLow_succ n s).1 hlow
    obtain ⟨hedge, hrest⟩ := List.forall_mem_append.1 hreqs
    have hb := State.byteTaken_eq_false_of_requests hrst hedge
    calc (cycles (n + 1) s).partialFrame
        = (cycles n (cycles 1 s)).partialFrame := by rw [cycles_succ]
      _ = (cycles 1 s).partialFrame := ih _ hlow' hrest
      _ = s.partialFrame := partialFrame_cycles_one hrst hb

/-- Settles O43: the partial frame is kept over the edges, and selection reads nothing else. -/
theorem partialFrameWaits : Obligations.PartialFrameWaits := by
  intro n s hlow hreqs
  obtain ⟨hphase, h0, h1, h2⟩ :=
    (State.partialFrame_eq_iff _ _).1 (partialFrame_cycles n s hlow hreqs)
  refine ⟨hphase, h0, h1, h2, fun b => ?_⟩
  rw [select_byte, select_byte, hphase, h0, h1, h2]

end Sys2Proof.Machine
end

section
/-! Proofs about the bit-field extractor (41_field_extractor.md R86, R88 to R90): a frame that tracks time, whole, and what
`Advance` settles before the range check. -/

namespace Sys2Proof.Machine

/-! ## A tracked frame, in numbers -/

theorem zextAddress_eq_ofNat (a : Address) : zextAddress a = BitVec.ofNat 16 a.toNat := by
  rw [← zextAddress_toNat, BitVec.ofNat_toNat, BitVec.setWidth_eq]

theorem zextShort_eq_ofNat (t : Short) : zextShort t = BitVec.ofNat 32 t.toNat := by
  rw [← zextShort_toNat, BitVec.ofNat_toNat, BitVec.setWidth_eq]

theorem inRange_eq_decide (y x : Address) (p : Pins) :
    inRange y x p = decide (x.toNat < p.cfgSizeX.toNat ∧ y.toNat < p.cfgSizeY.toNat) :=
  Bool.eq_iff_iff.2 ((inRange_iff y x p).trans decide_eq_true_iff.symm)

/-- `track_of_wrap` and `track_of_no_wrap` as one time base, the test inside each field. -/
theorem TimeBase.track_eq (t : Short) (tb : TimeBase) :
    tb.track t =
      { wrapOverflow := tb.wrapOverflow
        wrapAdd := if t.toNat < tb.lastShort.toNat then tb.wrapAdd + 0x10000#32 else tb.wrapAdd
        lastShort := if t.toNat < tb.lastShort.toNat then 0#16 else t
        last := tb.current
        current := (if t.toNat < tb.lastShort.toNat then tb.wrapAdd + 0x10000#32 else tb.wrapAdd) +
          BitVec.ofNat 32 t.toNat } := by
  rw [← zextShort_eq_ofNat]
  by_cases hw : t.toNat < tb.lastShort.toNat
  · rw [TimeBase.track_of_wrap hw]
    simp only [if_pos hw, BitVec.ofNat_eq_ofNat]
  · rw [TimeBase.track_of_no_wrap hw]
    simp only [if_neg hw]

/-- Settles O20: `execFrame_tracked` fixes every field, and the lemmas above turn its terms into the statement's. -/
theorem trackedFrame : Obligations.TrackedFrame := by
  intro y x pol t s hp hc
  obtain ⟨r, e, hparams, hphase, h0, h1, h2, hpend, htb, hcnt, hstr, hout, hpins, hin⟩ :=
    execFrame_tracked (y := y) (x := x) (pol := pol) hp hc
  rw [TimeBase.track_eq] at htb hcnt hstr hout
  rw [inRange_eq_decide] at hcnt hstr hout
  rw [pixelEvent, zextAddress_eq_ofNat, zextAddress_eq_ofNat] at hout
  rw [exec_frame, e]
  cases r
  subst hparams hphase h0 h1 h2 hpend htb hcnt hstr hout hpins hin
  simp only [hp, decide_eq_true_eq]

/-! ## What a frame settles before the range check -/

/-- The registers that only `Advance` writes during a frame: time, the latch, MONO_WARN and the command. -/
def State.timing (s : State) : TimeBase × Bool × Word × Bool × Bool :=
  (s.tb, s.resetPending, s.cnt.mono, s.strobes.stMono, s.strobes.cmdTsReset)

theorem State.timing_eq_iff (s u : State) : s.timing = u.timing ↔
    s.tb = u.tb ∧ s.resetPending = u.resetPending ∧ s.cnt.mono = u.cnt.mono ∧
      s.strobes.stMono = u.strobes.stMono ∧ s.strobes.cmdTsReset = u.strobes.cmdTsReset := by
  simp [State.timing]

/-- What follows `Advance` in `dispatch`, an event or a RANGE_DROP, leaves these registers (R86). -/
theorem dispatch_timing (y x : Address) (pol : Bool) (t : Short) (s : State) :
    (dispatch y x pol t s).timing = (advance t s).2.2.timing := by
  rw [dispatch]
  rcases advance t s with ⟨ts, special, s'⟩
  cases special with
  | reset => rfl
  | wrap => rfl
  | none =>
    dsimp only
    split <;> rfl

theorem State.checkMonotonic_timing (s : State) : s.checkMonotonic.timing =
    (s.tb, s.resetPending,
      if s.tb.current.toNat < s.tb.last.toNat then s.cnt.mono + 1 else s.cnt.mono,
      s.strobes.stMono || decide (s.tb.current.toNat < s.tb.last.toNat), s.strobes.cmdTsReset) := by
  simp [State.timing, State.checkMonotonic_cnt, State.checkMonotonic_strobes]

/-- `Advance` reads no input port. -/
theorem advance_timing_withPins (t : Short) (s : State) (p : Pins) :
    (advance t { s with pins := p }).2.2.timing = (advance t s).2.2.timing := by
  unfold advance
  split
  case isTrue => rfl
  case isFalse =>
    split
    case isTrue => rfl
    case isFalse =>
      dsimp only
      rw [State.checkMonotonic_timing, State.checkMonotonic_timing]
      rfl

/-- Settles O22: the two frames call the same `Advance` on states that differ in `pins` alone. -/
theorem advanceIgnoresTheRangeCheck : Obligations.AdvanceIgnoresTheRangeCheck := by
  intro y x y' x' pol pol' t s cx cy
  refine ⟨_, _, rfl, rfl, (State.timing_eq_iff _ _).1 ?_⟩
  rw [dispatch_timing, dispatch_timing]
  exact advance_timing_withPins t (s.setPhase .scan) _

end Sys2Proof.Machine
end

section
/-! Proofs about the timestamp reconstructor (42_timestamp_reconstructor.md): the request, a reset frame, the big wrap, frames
that track time in a row, and that nothing but a frame moves time. -/

namespace Sys2Proof.Machine

/-! ## The request (R103) -/

theorem exec_resetReq (s : State) : exec .resetReq s = .next (s.setResetPending true) := rfl

theorem State.setResetPending_self (s : State) : s.setResetPending s.resetPending = s := rfl

/-- Settles O17: `exec_resetReq` is one field write, and writing back what a field holds changes nothing. -/
theorem requestSetsTheLatch : Obligations.RequestSetsTheLatch := by
  refine fun s => ⟨exec_resetReq s, fun hp => ?_⟩
  rw [exec_resetReq, ← hp, State.setResetPending_self]

/-! ## The time base over a frame that tracks time (R104 to R112) -/

theorem TimeBase.track_last (t : Short) (tb : TimeBase) : (tb.track t).last = tb.current := by
  rw [TimeBase.track_eq]

/-- After a frame the next one with the same short timestamp is no wrap: `last_short` is that timestamp or 0. -/
theorem TimeBase.not_lt_track_lastShort (t : Short) (tb : TimeBase) :
    ¬t.toNat < (tb.track t).lastShort.toNat := by
  rw [TimeBase.track_eq]
  by_cases hw : t.toNat < tb.lastShort.toNat <;> simp [hw]

theorem TimeBase.track_current (t : Short) (tb : TimeBase) :
    (tb.track t).current = (tb.track t).wrapAdd + zextShort t := by
  rw [TimeBase.track_eq, zextShort_eq_ofNat]

/-- R112: the epoch and the short timestamp are the same, so the sum is. -/
theorem TimeBase.track_track_current (t : Short) (tb : TimeBase) :
    ((tb.track t).track t).current = (tb.track t).current := by
  rw [TimeBase.track_of_no_wrap (TimeBase.not_lt_track_lastShort t tb), TimeBase.track_current]

/-- What a frame that is neither RESET nor WRAP leaves of the parameters, the latch, the time base and MONO_WARN. -/
theorem exec_frame_tracked_timing {y x : Address} {pol : Bool} {t : Short} {s r : State}
    (hp : s.resetPending = false)
    (hc : ¬(t.toNat < s.tb.lastShort.toNat ∧ ceilingNat s.params < s.tb.wrapAdd.toNat + 65536))
    (h : exec (.frame y x pol t) s = .next r) :
    r.params = s.params ∧ r.resetPending = false ∧ r.tb = s.tb.track t ∧
      (¬(s.tb.track t).current.toNat < s.tb.current.toNat →
        r.cnt.mono = s.cnt.mono ∧ r.strobes.stMono = s.strobes.stMono) := by
  obtain ⟨r', e, hparams, -, -, -, -, hpend, htb, hcnt, hstr, -⟩ :=
    execFrame_tracked (y := y) (x := x) (pol := pol) hp hc
  obtain rfl : r' = r := Host.Outcome.next.inj (e.symm.trans h)
  refine ⟨hparams, hpend, htb, fun hm => ?_⟩
  rw [hcnt, hstr]
  simp [hm]

/-- Settles O26: the second frame is no wrap whatever the first was, so `track_track_current` applies. -/
theorem equalTimestampsRaiseNothing : Obligations.EqualTimestampsRaiseNothing := by
  intro y x y' x' pol pol' t s r q hp hc hr hq
  obtain ⟨-, hrp, hrtb, -⟩ := exec_frame_tracked_timing hp hc hr
  have hnowrap : ¬t.toNat < r.tb.lastShort.toNat := by
    rw [hrtb]; exact TimeBase.not_lt_track_lastShort t s.tb
  have hcur : (r.tb.track t).current = r.tb.current := by
    rw [hrtb]; exact TimeBase.track_track_current t s.tb
  obtain ⟨-, -, hqtb, hquiet⟩ := exec_frame_tracked_timing hrp (fun h => hnowrap h.1) hq
  refine ⟨by rw [hqtb, hcur], by rw [hqtb, TimeBase.track_last], hquiet ?_⟩
  rw [hcur]
  exact Nat.lt_irrefl _

/-! ## A frame with a request pending (R101) -/

theorem exec_frame_of_resetPending (y x : Address) (pol : Bool) (t : Short) {s : State}
    (hp : s.resetPending = true) :
    exec (.frame y x pol t) s =
      .next ((s.setPhase .scan).applyReset.emit (resetEvent s.params.resetEventTs)) := by
  rcases execFrame_cases y x pol t s with ⟨-, e⟩ | ⟨hn, -⟩ | ⟨hn, -⟩
  · exact e
  · simp [hp] at hn
  · simp [hp] at hn

/-- The first frame of an epoch has its own short timestamp. -/
theorem TimeBase.track_zero (t : Short) : TimeBase.zero.track t = ⟨0, 0, t, 0, zextShort t⟩ := by
  rw [TimeBase.track_of_no_wrap (tb := TimeBase.zero) (Nat.not_lt_zero _)]
  simp [TimeBase.zero]

/-- Settles O18: `exec_frame_of_resetPending` is the record, and the next frame tracks time from the zero time base. -/
theorem resetFrame : Obligations.ResetFrame := by
  intro y x pol t s hp
  refine ⟨_, exec_frame_of_resetPending y x pol t hp, rfl, fun y' x' pol' t' => ?_⟩
  obtain ⟨q, hq⟩ := exec_next (.frame y' x' pol' t')
    ((s.setPhase .scan).applyReset.emit (resetEvent s.params.resetEventTs))
  have hnowrap : ¬t'.toNat < TimeBase.zero.lastShort.toNat := Nat.not_lt_zero _
  obtain ⟨-, -, htb, -⟩ := exec_frame_tracked_timing rfl (fun h => hnowrap h.1) hq
  replace htb : q.tb = TimeBase.zero.track t' := htb
  rw [TimeBase.track_zero] at htb
  exact ⟨q, hq, by rw [htb, zextShort_toNat], by rw [htb], by rw [htb]⟩

/-! ## The big wrap (R105) -/

theorem exec_frame_of_bigWrap (y x : Address) (pol : Bool) {t : Short} {s : State}
    (hp : s.resetPending = false) (hw : t.toNat < s.tb.lastShort.toNat)
    (hc : ceilingNat s.params < s.tb.wrapAdd.toNat + 65536) :
    exec (.frame y x pol t) s =
      .next (((s.setPhase .scan).setTimeBase s.tb.bigWrap).emit (wrapEvent wrapEventTs)) := by
  rcases execFrame_cases y x pol t s with ⟨hn, -⟩ | ⟨-, -, -, e⟩ | ⟨-, hn, -⟩
  · simp [hp] at hn
  · exact e
  · exact absurd ⟨hw, hc⟩ hn

/-- R36 leaves one `wrap_add` whose sum is above the ceiling: the largest. -/
theorem TimeBase.ceiling_lt_iff_of_ok {p : Config.Params} {tb : TimeBase} (h : tb.Ok p) :
    ceilingNat p < tb.wrapAdd.toNat + 65536 ↔ tb.wrapAdd.toNat + 65536 = ceilingNat p + 1 := by
  obtain ⟨-, hmax, -⟩ := h
  rw [tsWrapAdd] at hmax
  omega

/-- Settles O19: `exec_frame_of_bigWrap` is the record, and the largest `wrap_add` is computed at each ceiling. -/
theorem bigWrapFrame : Obligations.BigWrapFrame := by
  refine ⟨fun y x pol t s hp hw hc => exec_frame_of_bigWrap y x pol hp hw hc, fun s ⟨hok, _⟩ => ?_⟩
  rw [TimeBase.ceiling_lt_iff_of_ok hok, ← BitVec.toNat_inj]
  rcases ceilingNat_cases s.params with ⟨hceil, hnat⟩ | ⟨hceil, hnat⟩
  · rw [hnat, hceil]
    show s.tb.wrapAdd.toNat + 65536 = 2147483648 ↔ s.tb.wrapAdd.toNat = 2147418112
    omega
  · rw [hnat, hceil]
    show s.tb.wrapAdd.toNat + 65536 = 4294967296 ↔ s.tb.wrapAdd.toNat = 4294901760
    omega

/-! ## The source's worked example (R117) -/

/-- One frame of a run whose time bases are known: no big wrap and no step back, so time is tracked and nothing warns. -/
theorem exists_exec_frame_forward (y x : Address) (pol : Bool) {t : Short} {s : State} {tb tb' : TimeBase}
    (hp : s.resetPending = false) (htb : s.tb = tb)
    (hc : ¬t.toNat < tb.lastShort.toNat ∨ tb.wrapAdd.toNat = 0) (htrack : tb.track t = tb')
    (hfwd : ¬tb'.current.toNat < tb.current.toNat) :
    ∃ r, exec (.frame y x pol t) s = .next r ∧ r.resetPending = false ∧ r.tb = tb' ∧
      r.cnt.mono = s.cnt.mono := by
  subst htb htrack
  have hnobig : ¬(t.toNat < s.tb.lastShort.toNat ∧ ceilingNat s.params < s.tb.wrapAdd.toNat + 65536) := by
    rintro ⟨hw, hceil⟩
    obtain hn | h0 := hc
    · exact hn hw
    · obtain ⟨hmin, -⟩ := ceilingNat_bounds s.params
      omega
  obtain ⟨r, hr⟩ := exec_next (.frame y x pol t) s
  obtain ⟨-, hrp, hrtb, hquiet⟩ := exec_frame_tracked_timing hp hnobig hr
  obtain ⟨hmono, -⟩ := hquiet hfwd
  exact ⟨r, hr, hrp, hrtb, hmono⟩

/-- Settles O27: no wrap, a normal wrap, no wrap, each moving `current` forward. -/
theorem sourceWrapExample : Obligations.SourceWrapExample := by
  intro s y x pol hp htb
  obtain ⟨a, ha, hap, hatb, ham⟩ := exists_exec_frame_forward y x pol (t := 65530#16)
    (tb' := ⟨0, 0, 65530#16, 0, 65530#32⟩) hp htb (.inr rfl) (by decide) (by decide)
  obtain ⟨b, hb, hbp, hbtb, hbm⟩ := exists_exec_frame_forward y x pol (t := 2#16)
    (tb' := ⟨0, 65536#32, 0, 65530#32, 65538#32⟩) hap hatb (.inr rfl) (by decide) (by decide)
  obtain ⟨c, hc, -, hctb, hcm⟩ := exists_exec_frame_forward y x pol (t := 100#16)
    (tb' := ⟨0, 65536#32, 100#16, 65538#32, 65636#32⟩) hbp hbtb (.inl (by decide)) (by decide) (by decide)
  exact ⟨a, b, c, ha, hb, hc, by rw [hatb], by rw [hbtb], by rw [hctb], by rw [hcm, hbm, ham]⟩

/-! ## An edge that completes no frame (R118) -/

/-- Settles O30: in each case of `step_cases` but the last the edge is `afterRequest` and writes of other registers. -/
theorem timeMovesOnlyWithFrames : Obligations.TimeMovesOnlyWithFrames := by
  intro s t hrst hstep hframe
  rcases step_cases hrst hstep with ⟨-, rfl⟩ | ⟨-, -, -, rfl⟩ | ⟨-, -, -, rfl⟩ | ⟨-, -, rfl⟩ |
    ⟨-, -, rfl⟩ | ⟨htaken, hphase, -⟩
  case inr.inr.inr.inr.inr => exact absurd ⟨htaken, hphase⟩ hframe
  all_goals simp

end Sys2Proof.Machine
end

section
/-! Proofs about the ports (43_ports_and_handshake.md R122 to R127): when a byte is taken, what an edge leaves in the
output register and the request latch, and which strobes it raises. -/

namespace Sys2Proof.Machine

/-! ## The byte handshake (R122) -/

theorem State.inReady_iff (s : State) :
    s.inReady = true ↔ s.pins.rst = false ∧ (s.out.valid = false ∨ s.pins.evReady = true) := by
  simp [State.inReady]

theorem State.byteTaken_iff (s : State) :
    s.byteTaken = true ↔ s.pins.inValid = true ∧ s.inReady = true := by
  simp [State.byteTaken]

theorem State.rst_of_byteTaken {s : State} (h : s.byteTaken = true) : s.pins.rst = false :=
  (s.inReady_iff.1 (s.byteTaken_iff.1 h).2).1

theorem State.byte_mem_transactions_iff (s : State) :
    .byte s.pins.inData ∈ s.transactions ↔ s.byteTaken = true := by
  by_cases hrst : s.pins.rst = false
  · rw [State.transactions_of_running hrst]
    by_cases ht : s.pins.tsResetReq = true <;> by_cases hb : s.byteTaken = true <;> simp [ht, hb]
  · have hb : ¬s.byteTaken = true := mt State.rst_of_byteTaken hrst
    simp [State.transactions, hrst, hb]

theorem step_of_no_byte {s : State} (hrst : s.pins.rst = false) (hb : s.byteTaken = false) :
    step s = .next (s.drive s.afterRequest) := by
  rw [step_running_eq hrst, hb, if_neg Bool.false_ne_true]

@[simp] theorem State.drive_registers (s r : State) : (s.drive r).registers = r.registers := rfl

@[simp] theorem State.afterRequest_registers (s : State) : s.afterRequest.registers =
    { s.registers with resetPending := s.resetPending || s.pins.tsResetReq } := by
  simp [State.registers]

/-- Settles O35: readiness by `inReady_iff`; an edge that takes no byte is a hardware reset or `afterRequest`, and neither
reads `in_data`. -/
theorem byteHandshake : Obligations.ByteHandshake := by
  refine ⟨fun s => ⟨s.inReady_iff, ?_⟩, fun s b hb => ?_⟩
  · rw [s.byte_mem_transactions_iff]
    exact ⟨fun h => ⟨State.rst_of_byteTaken h, s.byteTaken_iff.1 h⟩, fun h => s.byteTaken_iff.2 h.2⟩
  · have hb' : State.byteTaken { s with pins := { s.pins with inData := b } } = false := hb
    by_cases hrst : s.pins.rst = true
    · exact ⟨_, _, step_of_reset hrst, step_of_reset hrst, rfl, rfl, rfl, fun h => by simp [hrst] at h⟩
    · replace hrst : s.pins.rst = false := by simpa using hrst
      refine ⟨_, _, step_of_no_byte hrst hb, step_of_no_byte hrst hb', ?_, ?_, ?_, fun _ hreq => ?_⟩
      · simp only [State.drive_registers, State.afterRequest_registers]
        rfl
      · simp only [State.drive_out, State.afterRequest_out]
        rfl
      · simp
      · simp [hreq, State.registers]

/-! ## The output register over an edge (R124, R125) -/

/-- A frame presents an event or leaves the output register. -/
theorem execFrame_out {y x : Address} {pol : Bool} {t : Short} {s r : State}
    (h : execFrame y x pol t s = .next r) : r.out = s.out ∨ r.out.valid = true := by
  rcases execFrame_cases y x pol t s with ⟨-, e⟩ | ⟨-, -, -, e⟩ | ⟨-, -, e⟩ <;> rw [e] at h <;> cases h
  · exact .inr rfl
  · exact .inr rfl
  · split
    · exact .inr rfl
    · exact .inl (by simp)

/-- Only a completed frame loads the output register; any other edge leaves what `beginEdge` left. -/
theorem step_out {s t : State} (hrst : s.pins.rst = false) (h : step s = .next t) :
    t.out = s.beginEdge.out ∨ (t.out.valid = true ∧ s.byteTaken = true ∧ s.phase = .fetch3) := by
  rcases step_cases hrst h with ⟨-, rfl⟩ | ⟨-, -, -, rfl⟩ | ⟨-, -, -, rfl⟩ | ⟨-, -, rfl⟩ |
    ⟨-, -, rfl⟩ | ⟨hb, hp, r, hr, rfl⟩
  case inr.inr.inr.inr.inr =>
    rcases execFrame_out hr with hout | hvalid
    · exact .inl (by simp [hout])
    · exact .inr ⟨hvalid, hb, hp⟩
  all_goals exact .inl (by simp)

theorem State.eventTaken_iff (s : State) :
    s.eventTaken = true ↔ s.out.valid = true ∧ s.pins.evReady = true := by
  simp [State.eventTaken]

theorem State.beginEdge_out_of_eventTaken {s : State} (h : s.eventTaken = true) :
    s.beginEdge.out = { s.out with valid := false } := by
  simp [h]

theorem State.beginEdge_out_of_not_eventTaken {s : State} (h : ¬s.eventTaken = true) :
    s.beginEdge.out = s.out := by
  simp [h]

theorem State.afterRequest_of_no_request {s : State} (h : s.pins.tsResetReq = false) :
    s.afterRequest = s.beginEdge := by
  simp [State.afterRequest, h]

/-- Settles O37: `byteTaken_frees_out` for the byte; an event after the edge is the waiting one or the frame's, by
`step_out`. -/
theorem noEventIsOverwritten : Obligations.NoEventIsOverwritten := by
  intro s t hrst hstep
  refine ⟨fun hb => (State.byteTaken_frees_out hb).1, fun hv => ?_, fun hb hreq => ?_⟩
  · rcases step_out hrst hstep with hout | ⟨-, hb, hp⟩
    · have hwaits : ¬s.eventTaken = true := fun he => by simp [hout, he] at hv
      rw [State.beginEdge_out_of_not_eventTaken hwaits] at hout
      rw [hout] at hv
      exact .inl ⟨hv, by simpa [State.eventTaken_iff, hv] using hwaits, hout⟩
    · exact .inr ⟨hb, hp, (State.byteTaken_frees_out hb).2⟩
  · obtain ⟨r, hr⟩ := exec_next (decodeByte s.phase s.fb0 s.fb1 s.fb2 s.pins.inData) s.beginEdge
    refine ⟨r, hr, ?_⟩
    rw [step_running_eq hrst, if_pos hb, State.afterRequest_of_no_request hreq, hr] at hstep
    cases hstep
    rfl

/-- Settles O38: `step_out`, with what `beginEdge` does to a waiting, a transferred and an absent event; a frame cannot
complete while an event waits. -/
theorem eventHandshake : Obligations.EventHandshake := by
  intro s t hrst hstep
  have hout := step_out hrst hstep
  refine ⟨fun hv he => ?_, fun hv he => ?_, fun hv => ?_⟩
  · rw [State.beginEdge_out_of_not_eventTaken (by simp [State.eventTaken_iff, he])] at hout
    refine hout.resolve_right fun ⟨_, hb, _⟩ => ?_
    have hfree := (State.byteTaken_frees_out hb).2
    simp [hv, he] at hfree
  · rwa [State.beginEdge_out_of_eventTaken (s.eventTaken_iff.2 ⟨hv, he⟩)] at hout
  · rwa [State.beginEdge_out_of_not_eventTaken (by simp [State.eventTaken_iff, hv])] at hout

/-! ## A request at the edge (R123) -/

/-- An edge that completes no frame keeps the latch, and sets it if a request comes. -/
theorem step_resetPending {s t : State} (hrst : s.pins.rst = false) (h : step s = .next t)
    (hframe : ¬(s.byteTaken = true ∧ s.phase = .fetch3)) :
    t.resetPending = s.afterRequest.resetPending := by
  rcases step_cases hrst h with ⟨-, rfl⟩ | ⟨-, -, -, rfl⟩ | ⟨-, -, -, rfl⟩ | ⟨-, -, rfl⟩ |
    ⟨-, -, rfl⟩ | ⟨hb, hp, -⟩
  case inr.inr.inr.inr.inr => exact absurd ⟨hb, hp⟩ hframe
  all_goals simp

/-- An edge that takes a frame's byte 3 processes that frame on the state that the request left. -/
theorem step_of_byte_three {s : State} (hb : s.byteTaken = true) (hp : s.phase = .fetch3) :
    step s = s.finish (exec (.frame (fieldY s.fb0) (fieldX s.fb1) (fieldPol s.fb1)
      (fieldT s.fb2 s.pins.inData)) s.afterRequest) := by
  rw [step_running_eq (State.rst_of_byteTaken hb), if_pos hb, hp, decodeByte, decodeFrame]

/-- The request of the edge itself counts: the frame that completes there is the reset frame. -/
theorem step_of_reset_frame {s : State} (hb : s.byteTaken = true) (hp : s.phase = .fetch3)
    (hpend : s.afterRequest.resetPending = true) :
    step s = .next (s.drive
      ((s.afterRequest.setPhase .scan).applyReset.emit (resetEvent s.params.resetEventTs))) := by
  rw [step_of_byte_three hb hp, exec_frame_of_resetPending _ _ _ _ hpend, State.afterRequest_params,
    State.finish_next]

/-- Settles O34: `step_of_reset_frame` when byte 3 is taken, `step_resetPending` otherwise. -/
theorem requestIsTakenBeforeTheByte : Obligations.RequestIsTakenBeforeTheByte := by
  intro s hrst hreq
  have hpend : s.afterRequest.resetPending = true := by simp [hreq]
  obtain ⟨t, hstep⟩ := step_next s
  refine ⟨t, hstep, ?_, fun hframe => ?_, fun hb hp => ?_⟩
  · simp [State.transactions_of_running hrst, hreq]
  · rw [step_resetPending hrst hstep hframe, hpend]
  · rw [step_of_reset_frame hb hp hpend] at hstep
    cases hstep
    exact ⟨rfl, rfl, rfl, rfl, rfl, s.afterRequest_cnt⟩

/-! ## The strobes after an edge (R126, R127) -/

theorem step_strobes_of_no_byte {s t : State} (h : step s = .next t) (hb : s.byteTaken = false) :
    t.strobes = Strobes.low := by
  by_cases hrst : s.pins.rst = true
  · rw [step_of_reset hrst] at h
    cases h
    rfl
  · rw [step_of_no_byte (by simpa using hrst) hb] at h
    cases h
    exact s.afterRequest_strobes

/-- Before byte 3 a taken byte can raise RESYNC and nothing else: at phase 0, with its sync bit clear. -/
theorem step_strobes_of_early_byte {s t : State} (h : step s = .next t) (hb : s.byteTaken = true)
    (hp : s.phase ≠ .fetch3) :
    t.strobes = { Strobes.low with
      stResync := decide (s.phase = .scan ∧ s.pins.inData.toNat < 128) } := by
  have hlow : syncBit s.pins.inData = false ↔ s.pins.inData.toNat < 128 := by
    rw [← Bool.not_eq_true, syncBit_iff, Nat.not_le]
  rcases step_cases (State.rst_of_byteTaken hb) h with ⟨hn, -⟩ | ⟨-, hph, hs, rfl⟩ | ⟨-, hph, hs, rfl⟩ |
    ⟨-, hph, rfl⟩ | ⟨-, hph, rfl⟩ | ⟨-, hph, -⟩
  · simp [hb] at hn
  · simp [hph, ← hlow, hs, Strobes.low]
  · simp [hph, ← hlow, hs]
  · simp [hph, Strobes.low]
  · simp [hph, Strobes.low]
  · exact absurd hph hp

section
variable {s t : State} (h : step s = .next t) (hb : s.byteTaken = true) (hp : s.phase = .fetch3)
include h hb hp

theorem step_strobes_of_reset_frame (hpend : s.afterRequest.resetPending = true) :
    t.strobes = { Strobes.low with cmdTsReset := true } := by
  rw [step_of_reset_frame hb hp hpend] at h
  cases h
  simp [State.applyReset]

theorem step_strobes_of_big_wrap (hpend : s.afterRequest.resetPending = false)
    (hw : (fieldT s.fb2 s.pins.inData).toNat < s.tb.lastShort.toNat ∧
      ceilingNat s.params < s.tb.wrapAdd.toNat + 65536) :
    t.strobes = Strobes.low := by
  rw [step_of_byte_three hb hp, exec_frame_of_bigWrap _ _ _ hpend (by simpa using hw.1) (by simpa using hw.2)] at h
  cases h
  exact s.afterRequest_strobes

/-- A frame that tracks time raises MONO_WARN and RANGE_DROP, each by its own test. -/
theorem step_strobes_of_tracked_frame (hpend : s.afterRequest.resetPending = false)
    (hw : ¬((fieldT s.fb2 s.pins.inData).toNat < s.tb.lastShort.toNat ∧
      ceilingNat s.params < s.tb.wrapAdd.toNat + 65536)) :
    t.strobes = { Strobes.low with
      stDrop := !inRange (fieldY s.fb0) (fieldX s.fb1) s.pins
      stMono := decide (t.tb.current < t.tb.last) } := by
  obtain ⟨r, e, -, -, -, -, -, -, htb, -, hstr, -⟩ :=
    execFrame_tracked (y := fieldY s.fb0) (x := fieldX s.fb1) (pol := fieldPol s.fb1) hpend (by simpa using hw)
  rw [step_of_byte_three hb hp, exec_frame, e] at h
  cases h
  rw [State.drive_strobes, hstr, State.drive_tb, htb, TimeBase.track_last]
  simp [Strobes.low, BitVec.lt_def]

end

/-- The frame that this edge would complete is a RESET or a WRAP frame (R72): `Advance` does not track time. -/
def State.specialFrame (s : State) : Bool :=
  s.afterRequest.resetPending ||
    (wrapDetected (fieldT s.fb2 s.pins.inData) s.tb && ceilingReached s.params s.tb)

theorem State.specialFrame_iff (s : State) : s.specialFrame = true ↔
    s.afterRequest.resetPending = true ∨
      (fieldT s.fb2 s.pins.inData).toNat < s.tb.lastShort.toNat ∧
        ceilingNat s.params < s.tb.wrapAdd.toNat + 65536 := by
  rw [State.specialFrame, Bool.or_eq_true, Bool.and_eq_true, wrapDetected_iff, ceilingReached_iff]

/-- The strobe registers after any edge, from what the edge took. -/
theorem step_strobes {s t : State} (h : step s = .next t) : t.strobes =
    { stResync := decide (s.byteTaken = true ∧ s.phase = .scan ∧ s.pins.inData.toNat < 128)
      cmdTsReset := decide (s.byteTaken = true ∧ s.phase = .fetch3 ∧ s.afterRequest.resetPending = true)
      stDrop := decide (s.byteTaken = true ∧ s.phase = .fetch3 ∧ ¬s.specialFrame = true ∧
        ¬inRange (fieldY s.fb0) (fieldX s.fb1) s.pins = true)
      stMono := decide (s.byteTaken = true ∧ s.phase = .fetch3 ∧ ¬s.specialFrame = true ∧
        t.tb.current < t.tb.last) } := by
  by_cases hb : s.byteTaken = true
  case neg =>
    rw [step_strobes_of_no_byte h (by simpa using hb)]
    simp [hb, Strobes.low]
  by_cases hp : s.phase = .fetch3
  case neg =>
    rw [step_strobes_of_early_byte h hb hp]
    simp [hb, hp, Strobes.low]
  by_cases hpend : s.afterRequest.resetPending = true
  case pos =>
    have hspecial : s.specialFrame = true := s.specialFrame_iff.2 (.inl hpend)
    rw [step_strobes_of_reset_frame h hb hp hpend]
    simp [hb, hp, hpend, hspecial, Strobes.low, -State.afterRequest_resetPending]
  by_cases hw : (fieldT s.fb2 s.pins.inData).toNat < s.tb.lastShort.toNat ∧
      ceilingNat s.params < s.tb.wrapAdd.toNat + 65536
  case pos =>
    have hspecial : s.specialFrame = true := s.specialFrame_iff.2 (.inr hw)
    rw [step_strobes_of_big_wrap h hb hp (Bool.eq_false_iff.2 hpend) hw]
    simp [hp, hpend, hspecial, Strobes.low, -State.afterRequest_resetPending]
  case neg =>
    have hspecial : ¬s.specialFrame = true := mt s.specialFrame_iff.1 (not_or.2 ⟨hpend, hw⟩)
    rw [step_strobes_of_tracked_frame h hb hp (Bool.eq_false_iff.2 hpend) hw]
    simp [hb, hp, hpend, hspecial, Strobes.low, -State.afterRequest_resetPending]

/-- Settles O39: `step_strobes`, its tests in the statement's numbers. -/
theorem strobesTellTheLastEdge : Obligations.StrobesTellTheLastEdge := by
  intro s t h took pending T wraps special inside
  have htook : took ↔ s.byteTaken = true := and_iff_right_of_imp State.rst_of_byteTaken
  have hpending : pending ↔ s.afterRequest.resetPending = true := by
    rw [State.afterRequest_resetPending]
  have hspecial : special ↔ s.specialFrame = true := by
    rw [State.specialFrame_iff, fieldT_toNat]
    exact or_congr_left hpending
  have hinside : inside ↔ inRange (fieldY s.fb0) (fieldX s.fb1) s.pins = true := by
    rw [inRange_iff, fieldX_toNat, fieldY_toNat]
  rw [htook, hpending, hspecial, hinside]
  have hstr := step_strobes h
  refine ⟨by rw [hstr, decide_eq_true_iff], by rw [hstr, decide_eq_true_iff], by rw [hstr, decide_eq_true_iff],
    by rw [hstr, decide_eq_true_iff], fun hcmd => ?_, fun hrst => ?_, rfl, rfl, rfl, rfl, rfl⟩
  · rw [hstr, decide_eq_true_iff] at hcmd
    obtain ⟨hb, hp, hpend⟩ := hcmd
    rw [step_of_reset_frame hb hp hpend] at h
    cases h
    rfl
  · simp [State.outputs, hrst]

end Sys2Proof.Machine
end

section
/-! Proofs about hardware reset (70_reset_and_hazards.md R160): the table's values after an edge with `rst = 1`. -/

namespace Sys2Proof.Machine

theorem State.reset_atReset : State.reset.AtReset := State.reset_withParams_atReset State.reset.params

/-- The table of R160 does not speak of the input levels, which are all that `drive` changes. -/
theorem State.drive_atReset_iff (s r : State) : (s.drive r).AtReset ↔ r.AtReset := Iff.rfl

/-- Hardware reset keeps only the parameters and the environment's levels, of which the table of R160 does not speak. -/
theorem State.hardwareReset_atReset (s : State) : s.hardwareReset.AtReset := State.reset_atReset

/-- Settles O1: the edge is `hardwareReset` followed by the next cycle's input levels. -/
theorem resetLeavesTheSpecsValues : Obligations.ResetLeavesTheSpecsValues := by
  refine ⟨State.reset_atReset, fun s hrst => ⟨_, step_of_reset hrst, ?_, ?_⟩⟩
  · exact (s.drive_atReset_iff s.hardwareReset).2 s.hardwareReset_atReset
  · rw [State.drive_params, State.hardwareReset_params]

end Sys2Proof.Machine
end

section
/-! Proofs about one transaction (00_scope.md R14): everything that taking one can do, and that it keeps the invariant
(10_state.md section 7; 30_encoding.md section 4), so that every edge does. -/

namespace Sys2Proof.Machine

/-! ## Everything a transaction can do -/

/-- The operation that a transaction selects in `s`, and the state it leaves. -/
inductive Takes (s : State) : Transaction → Instr → State → Prop
  | resetReq : Takes s .resetReq .resetReq (s.setResetPending true)
  | skip {b : Byte} (hphase : s.phase = .scan) (hsync : syncBit b = false) :
      Takes s (.byte b) (.skip b) (s.raise .resync)
  | sync {b : Byte} (hphase : s.phase = .scan) (hsync : syncBit b = true) :
      Takes s (.byte b) (.sync b) ((s.setFb0 b).setPhase .fetch1)
  | collect1 {b : Byte} (hphase : s.phase = .fetch1) :
      Takes s (.byte b) (.collect1 b) ((s.setFb1 b).setPhase .fetch2)
  | collect2 {b : Byte} (hphase : s.phase = .fetch2) :
      Takes s (.byte b) (.collect2 b) ((s.setFb2 b).setPhase .fetch3)
  | frame {b : Byte} {y x : Address} {pol : Bool} {t : Short} {r : State} (hphase : s.phase = .fetch3)
      (hfields : decodeFrame s.fb0 s.fb1 s.fb2 b = .frame y x pol t)
      (hexec : exec (.frame y x pol t) s = .next r) :
      Takes s (.byte b) (.frame y x pol t) r

theorem takes_of_exec {t : Transaction} {s r : State} (h : exec (t.select s) s = .next r) :
    Takes s t (t.select s) r := by
  cases t with
  | resetReq =>
    cases h
    exact .resetReq
  | byte b =>
    rw [select_byte] at h ⊢
    rcases s.phase_cases with hp | hp | hp | hp <;> rw [hp] at h ⊢
    · by_cases hs : syncBit b = true
      · rw [decodeByte, if_pos hs] at h ⊢
        cases h
        exact .sync hp hs
      · rw [decodeByte, if_neg hs] at h ⊢
        cases h
        exact .skip hp (by simpa using hs)
    · cases h
      exact .collect1 hp
    · cases h
      exact .collect2 hp
    · exact .frame hp rfl h

/-! ## Everything a completed frame can do -/

/-- What a frame that tracks time leaves, register by register (R88 to R90, R106 to R110). -/
structure FrameTracks (y x : Address) (pol : Bool) (t : Short) (s r : State) : Prop where
  params : r.params = s.params
  phase : r.phase = .scan
  fb0 : r.fb0 = s.fb0
  fb1 : r.fb1 = s.fb1
  fb2 : r.fb2 = s.fb2
  resetPending : r.resetPending = false
  tb : r.tb = s.tb.track t
  cnt : r.cnt = { s.cnt with
    mono := if (s.tb.track t).current.toNat < s.tb.current.toNat then s.cnt.mono + 1 else s.cnt.mono
    drop := if inRange y x s.pins then s.cnt.drop else s.cnt.drop + 1 }
  strobes : r.strobes = { s.strobes with
    stMono := s.strobes.stMono || decide ((s.tb.track t).current.toNat < s.tb.current.toNat)
    stDrop := s.strobes.stDrop || !inRange y x s.pins }
  out : r.out = if inRange y x s.pins then ⟨true, pixelEvent (s.tb.track t).current y x pol⟩ else s.out

section
variable {y x : Address} {pol : Bool} {t : Short} {s r : State} (h : exec (.frame y x pol t) s = .next r)
include h

theorem exec_frame_tracks (hp : s.resetPending = false)
    (hc : ¬(t.toNat < s.tb.lastShort.toNat ∧ ceilingNat s.params < s.tb.wrapAdd.toNat + 65536)) :
    FrameTracks y x pol t s r := by
  obtain ⟨r', e, hparams, hphase, h0, h1, h2, hpend, htb, hcnt, hstr, hout, -⟩ :=
    execFrame_tracked (y := y) (x := x) (pol := pol) hp hc
  obtain rfl : r' = r := Host.Outcome.next.inj (e.symm.trans h)
  exact ⟨hparams, hphase, h0, h1, h2, hpend, htb, hcnt, hstr, hout⟩

/-- `execFrame_cases` read off the state that a frame left. -/
theorem exec_frame_cases :
    (s.resetPending = true ∧ r = (s.setPhase .scan).applyReset.emit (resetEvent s.params.resetEventTs)) ∨
    (s.resetPending = false ∧
      (t.toNat < s.tb.lastShort.toNat ∧ ceilingNat s.params < s.tb.wrapAdd.toNat + 65536) ∧
      r = ((s.setPhase .scan).setTimeBase s.tb.bigWrap).emit (wrapEvent wrapEventTs)) ∨
    (s.resetPending = false ∧
      ¬(t.toNat < s.tb.lastShort.toNat ∧ ceilingNat s.params < s.tb.wrapAdd.toNat + 65536) ∧
      FrameTracks y x pol t s r) := by
  rcases execFrame_cases y x pol t s with ⟨hp, e⟩ | ⟨hp, hw, hc, e⟩ | ⟨hp, hc, -⟩
  · exact .inl ⟨hp, Host.Outcome.next.inj (h.symm.trans e)⟩
  · exact .inr (.inl ⟨hp, ⟨hw, hc⟩, Host.Outcome.next.inj (h.symm.trans e)⟩)
  · exact .inr (.inr ⟨hp, hc, exec_frame_tracks h hp hc⟩)

end

/-! ## The invariant -/

theorem Event.legal_pixelEvent (p : Config.Params) (ts : Word) (y x : Address) (pol : Bool) :
    (pixelEvent ts y x pol).Legal p :=
  .inl ⟨rfl, rfl, (zextAddress_toNat x).trans_lt x.isLt, (zextAddress_toNat y).trans_lt y.isLt⟩

theorem Event.legal_wrapEvent (p : Config.Params) : (wrapEvent wrapEventTs).Legal p :=
  .inr (.inl ⟨rfl, rfl⟩)

theorem Event.legal_resetEvent (p : Config.Params) : (resetEvent p.resetEventTs).Legal p :=
  .inr (.inr ⟨rfl, rfl⟩)

theorem State.syncHeld_of_scan {s : State} (h : s.phase = .scan) : s.SyncHeld :=
  fun hn => absurd h hn

/-- A frame ends at phase 0, with a time base that is `Ok`, and its event, if it emits one, is legal. -/
theorem exec_frame_keeps_inv {y x : Address} {pol : Bool} {t : Short} {s r : State} (hinv : s.Inv)
    (h : exec (.frame y x pol t) s = .next r) : r.Inv := by
  obtain ⟨hok, hlegal, -⟩ := hinv
  rcases exec_frame_cases h with ⟨-, rfl⟩ | ⟨-, -, rfl⟩ | ⟨-, hc, hr⟩
  · exact ⟨TimeBase.epochStart_ok s.params 0, Event.legal_resetEvent s.params, State.syncHeld_of_scan rfl⟩
  · exact ⟨TimeBase.epochStart_ok s.params _, Event.legal_wrapEvent s.params, State.syncHeld_of_scan rfl⟩
  · refine ⟨?_, ?_, State.syncHeld_of_scan hr.phase⟩
    · rw [hr.tb, hr.params]
      exact TimeBase.track_ok hok hc
    · rw [hr.out, hr.params]
      split
      · exact Event.legal_pixelEvent s.params _ y x pol
      · exact hlegal

theorem Takes.keeps_inv {t : Transaction} {i : Instr} {s r : State} (h : Takes s t i r) (hinv : s.Inv) :
    r.Inv := by
  obtain ⟨hok, hlegal, hheld⟩ := id hinv
  cases h with
  | resetReq => exact ⟨hok, hlegal, hheld⟩
  | skip hphase _ => exact ⟨hok, hlegal, State.syncHeld_of_scan hphase⟩
  | sync _ hsync => exact ⟨hok, hlegal, fun _ => hsync⟩
  | collect1 hphase => exact ⟨hok, hlegal, fun _ => hheld (by simp [hphase])⟩
  | collect2 hphase => exact ⟨hok, hlegal, fun _ => hheld (by simp [hphase])⟩
  | frame _ _ hexec => exact exec_frame_keeps_inv hinv hexec

theorem transactAll_keeps_inv (ts : List Transaction) {s r : State} (hinv : s.Inv)
    (h : transactAll ts s = .next r) : r.Inv := by
  induction ts generalizing s with
  | nil =>
    cases h
    exact hinv
  | cons t ts ih =>
    obtain ⟨q, hq⟩ := exec_next (t.select s) s
    rw [transactAll, transact, hq] at h
    exact ih ((takes_of_exec hq).keeps_inv hinv) h

theorem State.reset_withParams_inv (p : Config.Params) : ({ State.reset with params := p } : State).Inv :=
  ⟨TimeBase.epochStart_ok p 0, .inl ⟨rfl, rfl, Nat.zero_lt_succ _, Nat.zero_lt_succ _⟩,
    State.syncHeld_of_scan rfl⟩

/-- The invariant speaks of no input level, strobe or `ev_valid`, which are all that `drive` and `beginEdge` change. -/
theorem State.drive_inv_iff (s r : State) : (s.drive r).Inv ↔ r.Inv := Iff.rfl

theorem State.beginEdge_inv_iff (s : State) : s.beginEdge.Inv ↔ s.Inv := Iff.rfl

theorem State.hardwareReset_inv (s : State) : s.hardwareReset.Inv := State.reset_withParams_inv s.params

/-- Settles O32: an edge is a hardware reset, or transactions on `beginEdge`, each of which keeps the invariant. -/
theorem stepKeepsInv : Obligations.StepKeepsInv := by
  intro s t hinv hstep
  by_cases hrst : s.pins.rst = true
  · rw [step_of_reset hrst] at hstep
    cases hstep
    exact (s.drive_inv_iff _).2 s.hardwareReset_inv
  · rw [step_of_running (by simpa using hrst)] at hstep
    rcases hr : transactAll s.transactions s.beginEdge with r | f | f <;> rw [hr] at hstep <;> cases hstep
    exact (s.drive_inv_iff r).2 (transactAll_keeps_inv _ (s.beginEdge_inv_iff.2 hinv) hr)

/-- Settles O31: `State.build` answers the reset state with the parameters it was given, or refuses. -/
theorem invHoldsAfterReset : Obligations.InvHoldsAfterReset := by
  refine ⟨State.reset_withParams_inv _, fun v r s h => ?_⟩
  by_cases hv : ∃ c, ceilingWord c = v
  · obtain ⟨c, rfl⟩ := hv
    rw [State.build_ceilingWord] at h
    cases h
    exact State.reset_withParams_inv ⟨c, r⟩
  · rw [State.build_of_illegal hv] at h
    cases h

/-- Settles O33: `Ok` bounds the registers by the ceiling, and `track_ok` does so after a frame. -/
theorem timestampsStayUnderTheCeiling : Obligations.TimestampsStayUnderTheCeiling := by
  intro s ⟨hok, _⟩
  obtain ⟨hmul, hmax, -, hcur, hlast, -⟩ := id hok
  rw [tsWrapAdd] at hmul hmax hcur hlast
  refine ⟨by omega, by omega, hmul, fun hs => ?_, fun hu => ?_, fun y x pol t hp hc => ?_⟩
  · rcases ceilingNat_cases s.params with ⟨-, hnat⟩ | ⟨hn, -⟩
    · omega
    · cases hs.symm.trans hn
  · rcases ceilingNat_cases s.params with ⟨hn, -⟩ | ⟨-, hnat⟩
    · cases hu.symm.trans hn
    · omega
  · obtain ⟨r, hr⟩ := exec_next (.frame y x pol t) s
    have htb := (exec_frame_tracks hr hp hc).tb
    obtain ⟨-, hsum, -⟩ := TimeBase.track_toNat hok hc
    obtain ⟨-, hmax', -, hcur', -⟩ := TimeBase.track_ok hok hc
    rw [tsWrapAdd] at hmax' hcur'
    exact ⟨r, hr, by rw [htb, hsum], by rw [htb]; omega⟩

end Sys2Proof.Machine
end

section
/-! Proofs about the encoding (30_encoding.md sections 1, 2, 3 and 6): table words and their bytes, the RawFrame word field
by field, and that decoding undoes encoding and encoding undoes decoding. -/

namespace Sys2Proof

/-! ## Table words and their bytes -/

theorem tableNumber_lt (bs : List Byte) : tableNumber bs < 256 ^ bs.length := by
  induction bs with
  | nil => exact Nat.zero_lt_one
  | cons b bs ih =>
    have hb : b.toNat * 256 ^ bs.length ≤ 255 * 256 ^ bs.length :=
      Nat.mul_le_mul_right _ (Nat.le_of_lt_succ b.isLt)
    rw [tableNumber, List.length_cons, Nat.pow_succ]
    omega

/-- The low `n` bytes of a number do not see what stands above them. -/
theorem tableBytes_mul_add (n k m : Nat) : tableBytes n (k * 256 ^ n + m) = tableBytes n m := by
  induction n generalizing k with
  | zero => rfl
  | succ n ih =>
    have hsplit : k * 256 ^ (n + 1) + m = k * 256 * 256 ^ n + m := by
      rw [Nat.pow_succ', ← Nat.mul_assoc]
    have hpos : 0 < 256 ^ n := Nat.pow_pos (by decide)
    rw [hsplit, tableBytes, tableBytes, ih, Nat.add_comm, Nat.add_mul_div_right _ _ hpos]
    congr 1
    apply BitVec.eq_of_toNat_eq
    simp only [BitVec.toNat_ofNat]
    omega

theorem tableBytes_tableNumber (bs : List Byte) : tableBytes bs.length (tableNumber bs) = bs := by
  induction bs with
  | nil => rfl
  | cons b bs ih =>
    have hpos : 0 < 256 ^ bs.length := Nat.pow_pos (by decide)
    have hhead : (b.toNat * 256 ^ bs.length + tableNumber bs) / 256 ^ bs.length = b.toNat := by
      rw [Nat.add_comm, Nat.add_mul_div_right _ _ hpos, Nat.div_eq_of_lt (tableNumber_lt bs), Nat.zero_add]
    rw [tableNumber, List.length_cons, tableBytes, hhead, tableBytes_mul_add, ih, BitVec.ofNat_toNat,
      BitVec.setWidth_eq]

/-- A word of at most four bytes decodes as its bytes do. -/
theorem decodeTableWord_eq_some_iff {n w : Nat} (hn : n ≤ 4) (hw : w < 256 ^ n) (i : Instr) :
    decodeTableWord (8 * n) w = some i ↔ decodeStream (tableBytes n w) = .ok i := by
  have hguard : 8 * n % 8 = 0 ∧ 8 * n ≤ 32 ∧ w < 2 ^ (8 * n) :=
    ⟨Nat.mul_mod_right 8 n, by omega, by rwa [Nat.pow_mul]⟩
  rw [decodeTableWord, if_pos hguard, Nat.mul_div_cancel_left n (by decide)]
  cases decodeStream (tableBytes n w) <;> simp

theorem decodeStream_of_decodeTableWord {nbits w : Nat} {i : Instr} (h : decodeTableWord nbits w = some i) :
    decodeStream (tableBytes (nbits / 8) w) = .ok i := by
  rw [decodeTableWord] at h
  split at h
  case isFalse => cases h
  case isTrue =>
    split at h
    case h_1 j hj =>
      cases h
      exact hj
    case h_2 => cases h

/-! ## Decoding what was encoded -/

theorem toNat_one_append (y : Address) : (1#1 ++ y).toNat = 128 + y.toNat := by
  rw [BitVec.toNat_append, ← Nat.shiftLeft_add_eq_or_of_lt y.isLt, Nat.shiftLeft_eq]
  rfl

theorem toNat_ofBool_append (pol : Bool) (x : Address) :
    (BitVec.ofBool pol ++ x).toNat = 128 * pol.toNat + x.toNat := by
  rw [BitVec.toNat_append, ← Nat.shiftLeft_add_eq_or_of_lt x.isLt, Nat.shiftLeft_eq, BitVec.toNat_ofBool,
    Nat.mul_comm]

theorem fieldY_append (y : Address) : fieldY (1#1 ++ y) = y := by
  apply BitVec.eq_of_toNat_eq
  rw [fieldY_toNat, toNat_one_append, Nat.add_mod_left, Nat.mod_eq_of_lt y.isLt]

theorem syncBit_append (y : Address) : syncBit (1#1 ++ y) = true := by
  rw [syncBit, BitVec.getLsbD_append]
  rfl

theorem fieldX_append (pol : Bool) (x : Address) : fieldX (BitVec.ofBool pol ++ x) = x := by
  apply BitVec.eq_of_toNat_eq
  rw [fieldX_toNat, toNat_ofBool_append, Nat.mul_add_mod, Nat.mod_eq_of_lt x.isLt]

theorem fieldPol_append (pol : Bool) (x : Address) : fieldPol (BitVec.ofBool pol ++ x) = pol := by
  rw [fieldPol, BitVec.getLsbD_append]
  cases pol <;> rfl

theorem fieldT_extract (t : Short) : fieldT (t.extractLsb' 8 8) (t.extractLsb' 0 8) = t := by
  have := t.isLt
  apply BitVec.eq_of_toNat_eq
  rw [fieldT_toNat, BitVec.extractLsb'_toNat, BitVec.extractLsb'_toNat, Nat.shiftRight_eq_div_pow,
    Nat.shiftRight_eq_div_pow]
  omega

theorem decodeStream_encode {i : Instr} (h : i.wellFormed = true) : decodeStream (encode i) = .ok i := by
  cases i with
  | skip b =>
    have hb : syncBit b = false := by simpa [Instr.wellFormed, syncBit] using h
    rw [encode, decodeStream, decodeByte, hb, if_neg Bool.false_ne_true]
  | sync b =>
    have hb : syncBit b = true := h
    rw [encode, decodeStream, decodeByte, if_pos hb]
  | collect1 b => rfl
  | collect2 b => rfl
  | frame y x pol t =>
    rw [encode, encodeFrame, decodeStream, if_pos (syncBit_append y), decodeByte, decodeFrame, fieldY_append,
      fieldX_append, fieldPol_append, fieldT_extract]
  | resetReq => rfl

theorem encode_length_le (i : Instr) : (encode i).length ≤ 4 := by
  cases i <;> simp [encode, encodeFrame]

/-- Settles O7: `decodeStream_encode`, and the table word spells the same bytes. -/
theorem decodeOfEncodeIsTheInstruction : Obligations.DecodeOfEncodeIsTheInstruction := by
  intro i h
  have hstream := decodeStream_encode h
  refine ⟨hstream, ?_⟩
  rw [encodeTableWord, decodeTableWord_eq_some_iff (encode_length_le i) (tableNumber_lt _),
    tableBytes_tableNumber, hstream]

/-! ## The RawFrame word -/

theorem tableBytes_four (w : Nat) : tableBytes 4 w =
    [BitVec.ofNat 8 (w / 2 ^ 24), BitVec.ofNat 8 (w / 2 ^ 16), BitVec.ofNat 8 (w / 2 ^ 8), BitVec.ofNat 8 w] := by
  simp [tableBytes]

theorem decodeFrame_ofNat (w : Nat) :
    decodeFrame (BitVec.ofNat 8 (w / 2 ^ 24)) (BitVec.ofNat 8 (w / 2 ^ 16)) (BitVec.ofNat 8 (w / 2 ^ 8))
      (BitVec.ofNat 8 w) =
    .frame (BitVec.ofNat 7 (w / 2 ^ 24)) (BitVec.ofNat 7 (w / 2 ^ 16)) (decide (w / 2 ^ 23 % 2 = 1))
      (BitVec.ofNat 16 w) := by
  rw [decodeFrame]
  congr 1
  · apply BitVec.eq_of_toNat_eq
    rw [fieldY_toNat, BitVec.toNat_ofNat, BitVec.toNat_ofNat]
    omega
  · apply BitVec.eq_of_toNat_eq
    rw [fieldX_toNat, BitVec.toNat_ofNat, BitVec.toNat_ofNat]
    omega
  · rw [Bool.eq_iff_iff, fieldPol_iff, BitVec.toNat_ofNat, decide_eq_true_iff]
    omega
  · apply BitVec.eq_of_toNat_eq
    rw [fieldT_toNat, BitVec.toNat_ofNat, BitVec.toNat_ofNat, BitVec.toNat_ofNat]
    omega

/-- Settles O6: the first byte's bit 7 is bit 31 of the word, and the fields are those of its four bytes. -/
theorem rawFrameWordLayout : Obligations.RawFrameWordLayout := by
  intro w hw
  have hsync : syncBit (BitVec.ofNat 8 (w / 2 ^ 24)) = true ↔ 2 ^ 31 ≤ w := by
    rw [Machine.syncBit_iff, BitVec.toNat_ofNat]
    omega
  have hstream : decodeStream (tableBytes 4 w) =
      if 2 ^ 31 ≤ w then .ok (.frame (BitVec.ofNat 7 (w / 2 ^ 24)) (BitVec.ofNat 7 (w / 2 ^ 16))
        (decide (w / 2 ^ 23 % 2 = 1)) (BitVec.ofNat 16 w)) else .error .noSync := by
    rw [tableBytes_four, decodeStream, decodeByte, decodeFrame_ofNat]
    simp only [hsync]
  refine Option.ext fun i => ?_
  rw [decodeTableWord_eq_some_iff (n := 4) (by decide) hw, hstream]
  split <;> simp

/-- The word of a RawFrame as a sum of its fields, each at its place. -/
theorem tableNumber_encodeFrame (y x : Address) (pol : Bool) (t : Short) :
    tableNumber (encodeFrame y x pol t) =
      2 ^ 31 + 2 ^ 24 * y.toNat + 2 ^ 23 * pol.toNat + 2 ^ 16 * x.toNat + t.toNat := by
  have ht := fieldT_toNat (t.extractLsb' 8 8) (t.extractLsb' 0 8)
  rw [fieldT_extract] at ht
  simp only [encodeFrame, tableNumber, List.length_cons, List.length_nil, toNat_one_append,
    toNat_ofBool_append, ht]
  omega

/-- Settles O8: a word with bit 31 set is the sum of the fields that it decodes to. -/
theorem everyFrameWordReencodes : Obligations.EveryFrameWordReencodes := by
  intro w hge hlt
  have hdecode := rawFrameWordLayout w hlt
  rw [if_pos hge] at hdecode
  refine ⟨_, _, _, _, hdecode, Prod.ext rfl ?_⟩
  rw [encodeTableWord, encode, tableNumber_encodeFrame, Bool.toNat, Bool.cond_decide]
  simp only [BitVec.toNat_ofNat]
  split <;> omega

/-- Settles O10: each word is closed, so the decoder computes its instruction. -/
theorem writtenWordsDecode : Obligations.WrittenWordsDecode :=
  ⟨by decide, by decide, by decide, by decide, by decide, by decide⟩

end Sys2Proof

namespace Sys2Proof.Machine

/-! ## The bytes of an instruction as a stream -/

/-- One item of a stream: what its transaction does, and what the whole stream then sends, leaves and selects. -/
theorem stream_cons (it : StreamItem) (rest : List StreamItem) (s : State) :
    ∃ s', Takes (it.before s) it.txn (it.txn.select s) s' ∧
      streamRun (it :: rest) s =
        ((s'.strobes.sent s'.presented).append (streamRun rest s').1, (streamRun rest s').2) ∧
      streamInstrs (it :: rest) s = it.txn.select s :: streamInstrs rest s' := by
  obtain ⟨s', h⟩ := exec_next (it.txn.select (it.before s)) (it.before s)
  refine ⟨s', select_before it s ▸ takes_of_exec h, ?_, ?_⟩
  · simp only [streamRun, transact, h]
  · simp only [streamInstrs, transact, h]

section
variable (sx sy : Short) (b : Byte) (bytes : List Byte) {s : State}

/-- The first byte of a stream is selected by the phase and the bytes held. -/
theorem streamInstrs_byte_cons :
    ∃ s', Takes (StreamItem.before ⟨.byte b, sx, sy⟩ s) (.byte b) (decodeByte s.phase s.fb0 s.fb1 s.fb2 b) s' ∧
      streamInstrs (byteStream sx sy (b :: bytes)) s =
        decodeByte s.phase s.fb0 s.fb1 s.fb2 b :: streamInstrs (byteStream sx sy bytes) s' := by
  obtain ⟨s', htakes, -, hinstrs⟩ := stream_cons ⟨.byte b, sx, sy⟩ (byteStream sx sy bytes) s
  exact ⟨s', htakes, hinstrs⟩

theorem streamInstrs_last_byte :
    streamInstrs (byteStream sx sy [b]) s = [decodeByte s.phase s.fb0 s.fb1 s.fb2 b] := by
  obtain ⟨s', -, hinstrs⟩ := streamInstrs_byte_cons sx sy b [] (s := s)
  exact hinstrs

theorem streamInstrs_sync_cons (hp : s.phase = .scan) (hb : syncBit b = true) :
    ∃ s', s'.phase = .fetch1 ∧ s'.fb0 = b ∧
      streamInstrs (byteStream sx sy (b :: bytes)) s = .sync b :: streamInstrs (byteStream sx sy bytes) s' := by
  obtain ⟨s', htakes, hinstrs⟩ := streamInstrs_byte_cons sx sy b bytes (s := s)
  rw [hp, decodeByte, if_pos hb] at htakes hinstrs
  cases htakes
  exact ⟨_, rfl, rfl, hinstrs⟩

theorem streamInstrs_collect1_cons (hp : s.phase = .fetch1) :
    ∃ s', s'.phase = .fetch2 ∧ s'.fb0 = s.fb0 ∧ s'.fb1 = b ∧
      streamInstrs (byteStream sx sy (b :: bytes)) s =
        .collect1 b :: streamInstrs (byteStream sx sy bytes) s' := by
  obtain ⟨s', htakes, hinstrs⟩ := streamInstrs_byte_cons sx sy b bytes (s := s)
  rw [hp, decodeByte] at htakes hinstrs
  cases htakes
  refine ⟨_, ?_, ?_, ?_, hinstrs⟩ <;> rfl

theorem streamInstrs_collect2_cons (hp : s.phase = .fetch2) :
    ∃ s', s'.phase = .fetch3 ∧ s'.fb0 = s.fb0 ∧ s'.fb1 = s.fb1 ∧ s'.fb2 = b ∧
      streamInstrs (byteStream sx sy (b :: bytes)) s =
        .collect2 b :: streamInstrs (byteStream sx sy bytes) s' := by
  obtain ⟨s', htakes, hinstrs⟩ := streamInstrs_byte_cons sx sy b bytes (s := s)
  rw [hp, decodeByte] at htakes hinstrs
  cases htakes
  refine ⟨_, ?_, ?_, ?_, ?_, hinstrs⟩ <;> rfl

end

/-- `decodeStream` and the phase-driven decoder agree on the last byte of a stream that starts at phase 0. -/
theorem streamInstrs_getLast?_of_decodeStream {bytes : List Byte} {i : Instr} {s : State} (sx sy : Short)
    (h : decodeStream bytes = .ok i) (hi : i ≠ .resetReq) (hp : s.phase = .scan) :
    (streamInstrs (byteStream sx sy bytes) s).getLast? = some i := by
  unfold decodeStream at h
  split at h
  case h_1 =>
    cases h
    exact absurd rfl hi
  case h_2 b =>
    cases h
    rw [streamInstrs_last_byte, hp]
    rfl
  case h_3 b0 b =>
    split at h <;> cases h
    case isTrue hsync =>
      obtain ⟨s1, hp1, -, h1⟩ := streamInstrs_sync_cons sx sy b0 [b] hp hsync
      rw [h1, streamInstrs_last_byte, hp1]
      rfl
  case h_4 b0 b1 b =>
    split at h <;> cases h
    case isTrue hsync =>
      obtain ⟨s1, hp1, -, h1⟩ := streamInstrs_sync_cons sx sy b0 [b1, b] hp hsync
      obtain ⟨s2, hp2, -, -, h2⟩ := streamInstrs_collect1_cons sx sy b1 [b] hp1
      rw [h1, h2, streamInstrs_last_byte, hp2]
      rfl
  case h_5 b0 b1 b2 b =>
    split at h <;> cases h
    case isTrue hsync =>
      obtain ⟨s1, hp1, f1, h1⟩ := streamInstrs_sync_cons sx sy b0 [b1, b2, b] hp hsync
      obtain ⟨s2, hp2, f2, g2, h2⟩ := streamInstrs_collect1_cons sx sy b1 [b2, b] hp1
      obtain ⟨s3, hp3, f3, g3, k3, h3⟩ := streamInstrs_collect2_cons sx sy b2 [b] hp2
      rw [h1, h2, h3, streamInstrs_last_byte, hp3, f3, f2, f1, g3, g2, k3]
      rfl
  case h_6 => cases h

/-- Settles O9: the encoded bytes decode to the instruction as a stream, hence on the block too. -/
theorem encodedBytesSelectTheInstruction : Obligations.EncodedBytesSelectTheInstruction :=
  fun _ _ sx sy hwf hi hp => streamInstrs_getLast?_of_decodeStream sx sy (decodeStream_encode hwf) hi hp

/-! ## A placed word (log entry 8) -/

theorem State.offerByte_byteTaken (b : Byte) (s : State) : (s.offerByte b).byteTaken = true := by
  cases hv : s.out.valid <;> simp [State.byteTaken, State.inReady, State.offerByte, hv]

theorem step_offerByte (b : Byte) (s : State) :
    step (s.offerByte b) =
      (s.offerByte b).finish (exec (decodeByte s.phase s.fb0 s.fb1 s.fb2 b) (s.offerByte b).beginEdge) := by
  rw [step_running_eq rfl, if_pos (s.offerByte_byteTaken b), State.afterRequest_of_no_request rfl]
  rfl

theorem step_offerRequest (s : State) :
    step s.offerRequest = s.offerRequest.finish (exec .resetReq s.offerRequest.beginEdge) := by
  rw [step_of_no_byte rfl rfl]
  rfl

/-- Placing the bytes before the last in the registers has the block decode the last as `decodeStream` does. -/
theorem step_placeBytes {bytes : List Byte} {i : Instr} (h : decodeStream bytes = .ok i) (s : State) :
    step (s.placeBytes bytes) = (s.placeBytes bytes).finish (exec i (s.placeBytes bytes).beginEdge) := by
  unfold decodeStream at h
  split at h
  case h_1 =>
    cases h
    exact step_offerRequest s
  case h_2 b =>
    cases h
    exact step_offerByte b (s.setPhase .scan)
  case h_3 b0 b =>
    split at h <;> cases h
    exact step_offerByte b ((s.setFb0 b0).setPhase .fetch1)
  case h_4 b0 b1 b =>
    split at h <;> cases h
    exact step_offerByte b (((s.setFb0 b0).setFb1 b1).setPhase .fetch2)
  case h_5 b0 b1 b2 b =>
    split at h <;> cases h
    exact step_offerByte b ((((s.setFb0 b0).setFb1 b1).setFb2 b2).setPhase .fetch3)
  case h_6 => cases h

/-- Settles O12: `withFetchWord` places the bytes that the word decodes by. -/
theorem placedWordIsRun : Obligations.PlacedWordIsRun :=
  fun _ _ _ s h => step_placeBytes (decodeStream_of_decodeTableWord h) s

end Sys2Proof.Machine
end

section
/-! Proofs about frames in a row (42_timestamp_reconstructor.md R104 to R119; 60_exceptions.md R144): what a normal wrap and
a frame without wrap do to the time base as numbers, when MONO_WARN is raised, and where an epoch starts. -/

namespace Sys2Proof.Machine

/-! ## A normal wrap (R106) -/

/-- Settles O24: no sum wraps 32 bits from a time base that is `Ok`, and `current` was below the new `wrap_add`. -/
theorem normalWrapNeverWarns : Obligations.NormalWrapNeverWarns := by
  intro y x pol t s ⟨hok, _⟩ hp hw hle
  have hc : ¬(t.toNat < s.tb.lastShort.toNat ∧ ceilingNat s.params < s.tb.wrapAdd.toNat + 65536) :=
    fun h => absurd h.2 (Nat.not_lt.2 hle)
  obtain ⟨hadd, hcur, hlast, hshort⟩ := TimeBase.track_toNat hok hc
  rw [if_pos hw] at hadd hshort
  obtain ⟨-, -, -, hbelow, -⟩ := hok
  rw [tsWrapAdd] at hbelow
  obtain ⟨r, hr⟩ := exec_next (.frame y x pol t) s
  obtain ⟨-, -, htb, hquiet⟩ := exec_frame_tracked_timing hp hc hr
  obtain ⟨hmono, hstrobe⟩ := hquiet (by omega)
  rw [← htb] at hadd hcur hlast hshort
  exact ⟨r, hr, hadd, hshort, hlast, by omega, by omega, hmono, hstrobe⟩

/-! ## When a frame warns (R144) -/

theorem word_add_one_ne (w : Word) : w + 1 ≠ w := by
  intro h
  bv_omega

/-- A RESET or a WRAP frame starts an epoch and moves no counter. -/
theorem exec_frame_special {y x : Address} {pol : Bool} {t : Short} {s r : State}
    (h : exec (.frame y x pol t) s = .next r)
    (hs : s.resetPending = true ∨
      (t.toNat < s.tb.lastShort.toNat ∧ ceilingNat s.params < s.tb.wrapAdd.toNat + 65536)) :
    r.resetPending = false ∧ r.cnt = s.cnt ∧ ∃ n, r.tb = ⟨n, 0, 0, 0, 0⟩ := by
  rcases exec_frame_cases h with ⟨-, rfl⟩ | ⟨hp, -, rfl⟩ | ⟨hp, hc, -⟩
  · exact ⟨rfl, rfl, 0, rfl⟩
  · exact ⟨hp, rfl, _, rfl⟩
  · exact absurd hs (not_or.2 ⟨by simp [hp], hc⟩)

/-- From a time base that is `Ok` a frame warns exactly if it is no RESET and no wrap and steps back in its epoch. -/
theorem exec_frame_mono_ne_iff {y x : Address} {pol : Bool} {t : Short} {s r : State} (hok : s.tb.Ok s.params)
    (h : exec (.frame y x pol t) s = .next r) :
    r.cnt.mono ≠ s.cnt.mono ↔ s.resetPending = false ∧ ¬t.toNat < s.tb.lastShort.toNat ∧
      s.tb.wrapAdd.toNat + t.toNat < s.tb.current.toNat := by
  by_cases hs : s.resetPending = true ∨
      (t.toNat < s.tb.lastShort.toNat ∧ ceilingNat s.params < s.tb.wrapAdd.toNat + 65536)
  case pos =>
    obtain ⟨-, hcnt, -⟩ := exec_frame_special h hs
    refine iff_of_false (fun hn => hn (by rw [hcnt])) fun ⟨hp, hw, _⟩ => ?_
    rcases hs with hp' | ⟨hw', -⟩
    · simp [hp] at hp'
    · exact hw hw'
  case neg =>
    obtain ⟨hp, hc⟩ := not_or.1 hs
    replace hp : s.resetPending = false := by simpa using hp
    obtain ⟨hadd, hcur, -⟩ := TimeBase.track_toNat hok hc
    have hwarns : r.cnt.mono ≠ s.cnt.mono ↔ (s.tb.track t).current.toNat < s.tb.current.toNat := by
      rw [(exec_frame_tracks h hp hc).cnt]
      dsimp only
      split <;> rename_i hback
      · exact iff_of_true (word_add_one_ne _) hback
      · exact iff_of_false (fun hn => hn rfl) hback
    obtain ⟨-, -, -, hbelow, -⟩ := hok
    rw [tsWrapAdd] at hbelow
    rw [hwarns, hcur, hadd, eq_true hp, true_and]
    split <;> omega

/-- Settles O25: after a normal wrap `last_short` is 0 while `current` holds the first's short timestamp, so a step back is
no wrap; after any other frame a lower short timestamp is one. -/
theorem monoWarnOnlyAfterANormalWrap : Obligations.MonoWarnOnlyAfterANormalWrap := by
  intro y x y' x' pol pol' t t' s r q hinv hr hq
  obtain ⟨hrok, -⟩ := exec_frame_keeps_inv hinv hr
  obtain ⟨hok, -⟩ := hinv
  rw [exec_frame_mono_ne_iff hrok hq]
  by_cases hs : s.resetPending = true ∨
      (t.toNat < s.tb.lastShort.toNat ∧ ceilingNat s.params < s.tb.wrapAdd.toNat + 65536)
  case pos =>
    obtain ⟨-, -, n, htb⟩ := exec_frame_special hr hs
    refine iff_of_false (fun ⟨_, _, hback⟩ => ?_) fun ⟨hp, hw, hle, _⟩ => ?_
    · rw [htb] at hback
      exact absurd hback (Nat.not_lt_zero _)
    · rcases hs with hp' | ⟨-, hc⟩
      · simp [hp] at hp'
      · omega
  case neg =>
    obtain ⟨hp, hc⟩ := not_or.1 hs
    replace hp : s.resetPending = false := by simpa using hp
    have htracks := exec_frame_tracks hr hp hc
    obtain ⟨-, hcur, -, hshort⟩ := TimeBase.track_toNat hok hc
    rw [htracks.tb, htracks.resetPending, hp, hcur, hshort, eq_self, true_and, true_and]
    by_cases hw : t.toNat < s.tb.lastShort.toNat
    · rw [if_pos hw, show (0 : Short).toNat = 0 from rfl]
      omega
    · rw [if_neg hw]
      omega

/-! ## The start of an epoch (R119) -/

/-- The first frame of an epoch has its own short timestamp and does not warn. -/
theorem exists_exec_frame_at_epochStart (y x : Address) (pol : Bool) (t : Short) {s : State} {n : Word}
    (hp : s.resetPending = false) (htb : s.tb = ⟨n, 0, 0, 0, 0⟩) :
    ∃ r, exec (.frame y x pol t) s = .next r ∧ r.resetPending = false ∧ r.tb = ⟨n, 0, t, 0, zextShort t⟩ ∧
      r.cnt.mono = s.cnt.mono := by
  refine exists_exec_frame_forward y x pol hp htb (.inr rfl) ?_ (Nat.not_lt_zero _)
  rw [TimeBase.track_of_no_wrap (tb := ⟨n, 0, 0, 0, 0⟩) (Nat.not_lt_zero _)]
  simp

/-- Settles O29: the time base after a special frame or a hardware reset is that of an epoch's start. -/
theorem epochStartsAtZero : Obligations.EpochStartsAtZero := by
  refine ⟨fun y x y' x' pol pol' t t' s r hr hs => ?_, fun y' x' pol' t' s r hrst hstep => ?_⟩
  · obtain ⟨hrp, -, n, htb⟩ := exec_frame_special hr hs
    obtain ⟨q, hq, -, hqtb, hmono⟩ := exists_exec_frame_at_epochStart y' x' pol' t' hrp htb
    exact ⟨q, hq, by rw [hqtb, zextShort_toNat], by rw [hqtb], by rw [hqtb, htb], hmono⟩
  · rw [step_of_reset hrst] at hstep
    cases hstep
    obtain ⟨q, hq, -, hqtb, hmono⟩ :=
      exists_exec_frame_at_epochStart y' x' pol' t' (s := s.drive s.hardwareReset) rfl rfl
    exact ⟨q, hq, by rw [hqtb, zextShort_toNat], by rw [hqtb], hmono⟩

/-! ## Falling short timestamps -/

theorem not_ceiling_lt_of_wrapAdd_le {p : Config.Params} {n : Nat} (h : n ≤ 65536) : ¬ceilingNat p < n + 65536 := by
  rcases ceilingNat_cases p with ⟨-, hnat⟩ | ⟨-, hnat⟩ <;> omega

theorem toNat_add_zextShort {w : Word} (h : w.toNat ≤ 0xFFFF0000) (t : Short) :
    (w + zextShort t).toNat = w.toNat + t.toNat := by
  have ht := t.isLt
  rw [BitVec.toNat_add, zextShort_toNat]
  omega

/-- A frame in the first two wraps of an epoch, where neither ceiling is reached, tracks time. -/
theorem exists_exec_frame_tracked (y x : Address) (pol : Bool) (t : Short) {s : State} {tb tb' : TimeBase}
    (hp : s.resetPending = false) (htb : s.tb = tb) (hadd : tb.wrapAdd.toNat ≤ 65536) (htrack : tb.track t = tb') :
    ∃ r, exec (.frame y x pol t) s = .next r ∧ r.resetPending = false ∧ r.tb = tb' ∧
      r.cnt.mono = if tb'.current.toNat < tb.current.toNat then s.cnt.mono + 1 else s.cnt.mono := by
  subst htb htrack
  have hc : ¬(t.toNat < s.tb.lastShort.toNat ∧ ceilingNat s.params < s.tb.wrapAdd.toNat + 65536) :=
    fun h => not_ceiling_lt_of_wrapAdd_le hadd h.2
  obtain ⟨r, hr⟩ := exec_next (.frame y x pol t) s
  have htracks := exec_frame_tracks hr hp hc
  exact ⟨r, hr, htracks.resetPending, htracks.tb, by rw [htracks.cnt]⟩

/-- Settles O28: no wrap, a normal wrap, a step back in the new epoch, and a second normal wrap. -/
theorem fallingTimestampsWrapTwice : Obligations.FallingTimestampsWrapTwice := by
  intro s wo y x pol ta tb tc td hp htb hba hcb hdc
  rw [BitVec.lt_def] at hba hcb hdc
  have hta := ta.isLt
  have hcurB := toNat_add_zextShort (w := 0x10000#32) (by decide) tb
  have hcurC := toNat_add_zextShort (w := 0x10000#32) (by decide) tc
  have hcurD := toNat_add_zextShort (w := 0x10000#32 + 0x10000#32) (by decide) td
  have hle : (0x10000#32).toNat ≤ 65536 := by decide
  rw [show (0x10000#32).toNat = 65536 from rfl] at hcurB hcurC
  rw [show (0x10000#32 + 0x10000#32).toNat = 131072 from rfl] at hcurD
  obtain ⟨a, ha, hap, hatb, ham⟩ := exists_exec_frame_at_epochStart y x pol ta hp htb
  obtain ⟨b, hb, hbp, hbtb, hbm⟩ := exists_exec_frame_tracked y x pol tb hap hatb (Nat.zero_le _)
    (tb' := ⟨wo, 0x10000#32, 0, zextShort ta, 0x10000#32 + zextShort tb⟩)
    (by rw [TimeBase.track_of_wrap hba, BitVec.ofNat_eq_ofNat, BitVec.zero_add])
  obtain ⟨c, hc, hcp, hctb, hcm⟩ := exists_exec_frame_tracked y x pol tc hbp hbtb hle
    (TimeBase.track_of_no_wrap (Nat.not_lt_zero _))
  obtain ⟨d, hd, -, hdtb, hdm⟩ := exists_exec_frame_tracked y x pol td hcp hctb hle
    (TimeBase.track_of_wrap hdc)
  dsimp only at hbm hcm hdm
  rw [hcurB, zextShort_toNat, if_neg (by omega)] at hbm
  rw [hcurB, hcurC, if_pos (by omega)] at hcm
  rw [hcurC, hcurD, if_neg (by omega)] at hdm
  exact ⟨a, b, c, d, ha, hb, hc, hd, by rw [hatb, zextShort_toNat], by rw [hbtb, hcurB], by rw [hctb, hcurC],
    by rw [hdtb, hcurD], by rw [hcm, hbm, ham], hdm, by rw [hdtb]⟩

end Sys2Proof.Machine
end

section
/-! Proofs about which operation writes which register (10_state.md section 7) and how counters and strobes go together
(60_exceptions.md R141). -/

namespace Sys2Proof.Machine

/-! ## The ownership table -/

/-- What every FRAME leaves unchanged, and that it ends at phase 0 with the latch low. -/
theorem exec_frame_keeps {y x : Address} {pol : Bool} {t : Short} {s r : State}
    (h : exec (.frame y x pol t) s = .next r) :
    r.phase = .scan ∧ r.fb0 = s.fb0 ∧ r.fb1 = s.fb1 ∧ r.fb2 = s.fb2 ∧ r.resetPending = false ∧
      r.cnt.resync = s.cnt.resync ∧ r.strobes.stResync = s.strobes.stResync := by
  rcases exec_frame_cases h with ⟨-, rfl⟩ | ⟨hp, -, rfl⟩ | ⟨-, -, hr⟩
  · exact ⟨rfl, rfl, rfl, rfl, rfl, rfl, rfl⟩
  · exact ⟨rfl, rfl, rfl, rfl, hp, rfl, rfl⟩
  · exact ⟨hr.phase, hr.fb0, hr.fb1, hr.fb2, hr.resetPending, by rw [hr.cnt], by rw [hr.strobes]⟩

/-- Only a RESET frame raises the command, and it raises nothing else. -/
theorem exec_frame_strobes {y x : Address} {pol : Bool} {t : Short} {s r : State}
    (h : exec (.frame y x pol t) s = .next r) :
    (s.resetPending = false → r.strobes.cmdTsReset = s.strobes.cmdTsReset) ∧
    (s.resetPending = true → r.strobes.stDrop = s.strobes.stDrop ∧ r.strobes.stMono = s.strobes.stMono) := by
  rcases exec_frame_cases h with ⟨hp, rfl⟩ | ⟨hp, -, rfl⟩ | ⟨hp, -, hr⟩
  · exact ⟨fun hn => by simp [hp] at hn, fun _ => ⟨rfl, rfl⟩⟩
  · exact ⟨fun _ => rfl, fun hn => by simp [hp] at hn⟩
  · exact ⟨fun _ => by rw [hr.strobes], fun hn => by simp [hp] at hn⟩

/-- Settles O23: one operation at a time; what it does not own is unchanged by its equation. -/
theorem eachRegisterHasItsWriters : Obligations.EachRegisterHasItsWriters := by
  intro i s r h
  obtain ⟨hparams, hpins, hinputs⟩ := exec_keeps h
  refine ⟨hparams, hpins, hinputs, ?_⟩
  cases i with
  | skip b => cases h; simp +contextual [isSkip]
  | sync b => cases h; simp +contextual [isSkip]
  | collect1 b => cases h; simp +contextual [isSkip]
  | collect2 b => cases h; simp +contextual [isSkip]
  | resetReq => cases h; simp
  | frame y x pol t =>
    obtain ⟨-, h0, h1, h2, hpend, hresync, hstResync⟩ := exec_frame_keeps h
    obtain ⟨hcmd, hquiet⟩ := exec_frame_strobes h
    have hcmd' : r.strobes.cmdTsReset ≠ s.strobes.cmdTsReset → s.resetPending = true :=
      fun hn => Bool.eq_true_of_not_eq_false fun hp => hn (hcmd hp)
    have hdrop : r.strobes.stDrop ≠ s.strobes.stDrop → s.resetPending = false :=
      fun hn => Bool.eq_false_iff.2 fun hp => hn (hquiet hp).1
    have hmono : r.strobes.stMono ≠ s.strobes.stMono → s.resetPending = false :=
      fun hn => Bool.eq_false_iff.2 fun hp => hn (hquiet hp).2
    simpa [isFrame, isSkip, h0, h1, h2, hpend, hresync, hstResync] using And.intro hcmd' ⟨hdrop, hmono⟩

/-! ## Counters and strobes -/

/-- The counters after the conditions whose strobes are high have been counted once each (R141). -/
def Counters.plus (c : Counters) (st : Strobes) : Counters :=
  { resync := c.resync + if st.stResync then 1 else 0
    drop := c.drop + if st.stDrop then 1 else 0
    mono := c.mono + if st.stMono then 1 else 0 }

@[simp] theorem Counters.plus_low (c : Counters) : c.plus Strobes.low = c := by
  simp [Counters.plus, Strobes.low]

/-- An operation counts the conditions that it raises, each once. -/
theorem exec_cnt_of_strobes_low {i : Instr} {s r : State} (hlow : s.strobes = Strobes.low)
    (h : exec i s = .next r) : r.cnt = s.cnt.plus r.strobes := by
  cases i with
  | skip b =>
    cases h
    simp [hlow, Counters.plus, Strobes.low]
  | frame y x pol t =>
    rcases exec_frame_cases h with ⟨-, rfl⟩ | ⟨-, -, rfl⟩ | ⟨-, -, hr⟩
    · simp [State.applyReset, hlow, Counters.plus, Strobes.low]
    · simp [hlow]
    · rw [hr.cnt, hr.strobes, hlow, Counters.plus]
      by_cases hin : inRange y x s.pins = true <;>
        by_cases hback : (s.tb.track t).current.toNat < s.tb.current.toNat <;>
        simp [hin, hback, Strobes.low]
  | _ =>
    cases h
    simp [hlow]

theorem step_cnt {s t : State} (hrst : s.pins.rst = false) (h : step s = .next t) :
    t.cnt = s.cnt.plus t.strobes := by
  rw [step_running_eq hrst] at h
  split at h
  · obtain ⟨r, hr⟩ := exec_next (decodeByte s.phase s.fb0 s.fb1 s.fb2 s.pins.inData) s.afterRequest
    rw [hr] at h
    cases h
    simpa using exec_cnt_of_strobes_low s.afterRequest_strobes hr
  · cases h
    simp

theorem word_toNat_add_ite (w : Word) (b : Bool) :
    (w + if b then 1 else 0).toNat = (w.toNat + if b then 1 else 0) % 2 ^ 32 := by
  cases b
  · simpa using (Nat.mod_eq_of_lt w.isLt).symm
  · simp [BitVec.toNat_add]

/-- Settles O40: `step_cnt`, as numbers. -/
theorem countersCountTheStrobes : Obligations.CountersCountTheStrobes := by
  intro s t hrst h
  rw [step_cnt hrst h]
  exact ⟨word_toNat_add_ite _ _, word_toNat_add_ite _ _, word_toNat_add_ite _ _⟩

end Sys2Proof.Machine
end

section
/-! Proofs about one edge (43_ports_and_handshake.md R121 to R128; 70_reset_and_hazards.md R161): what it runs, what it does
under `rst`, which inputs it reads, and the input levels after it. -/

namespace Sys2Proof.Machine

/-! ## An edge with `rst = 1` (R161) -/

theorem State.inReady_of_rst {s : State} (h : s.pins.rst = true) : s.inReady = false := by
  simp [State.inReady, h]

theorem State.transactions_of_rst {s : State} (h : s.pins.rst = true) : s.transactions = [] := by
  simp [State.transactions, h]

theorem State.byteTaken_of_inReady_false {s : State} (h : s.inReady = false) : s.byteTaken = false := by
  simp [State.byteTaken, h]

/-- With no event presented and `rst` low the block is ready, so that an offered byte is taken. -/
theorem State.byteTaken_of_out_empty {s : State} (hrst : s.pins.rst = false) (hout : s.out.valid = false)
    (hvalid : s.pins.inValid = true) : s.byteTaken = true :=
  s.byteTaken_iff.2 ⟨hvalid, s.inReady_iff.2 ⟨hrst, .inl hout⟩⟩

theorem State.resetReq_mem_transactions {s : State} (hrst : s.pins.rst = false) (hreq : s.pins.tsResetReq = true) :
    .resetReq ∈ s.transactions := by
  simp [State.transactions_of_running hrst, hreq]

/-- Settles O2: readiness and the strobe ports are masked by `rst`, a hardware reset reads no other input, and it leaves no
event presented. -/
theorem nothingIsTakenDuringReset : Obligations.NothingIsTakenDuringReset := by
  refine ⟨fun s hrst => ?_, fun s p hrst hp => ?_, fun s t hrst hstep hlow => ?_⟩
  · refine ⟨State.inReady_of_rst hrst, State.transactions_of_rst hrst, State.inReady_of_rst hrst, ?_⟩
    simp [State.outputs, hrst]
  · exact ⟨_, _, step_of_reset hrst, step_of_reset hp, rfl, rfl, rfl⟩
  · have hout : t.out.valid = false := by
      rw [step_of_reset hrst] at hstep
      cases hstep
      rfl
    exact ⟨fun hvalid => t.byte_mem_transactions_iff.2 (State.byteTaken_of_out_empty hlow hout hvalid),
      State.resetReq_mem_transactions hlow⟩

/-! ## What an edge runs -/

theorem step_of_byte {s : State} (hb : s.byteTaken = true) :
    step s = s.finish (exec (decodeByte s.phase s.fb0 s.fb1 s.fb2 s.pins.inData) s.afterRequest) := by
  rw [step_running_eq (State.rst_of_byteTaken hb), if_pos hb]

/-- Settles O11: `step_running_eq` at each combination of a request and a taken byte. -/
theorem stepRunsTheDecodedInstruction : Obligations.StepRunsTheDecodedInstruction := by
  intro s hrst
  refine ⟨fun hreq hb => ?_, fun hreq hb => ?_, fun hreq hb => ⟨_, exec_resetReq s.beginEdge, ?_⟩,
    fun hreq hb => ?_⟩
  · rw [step_of_byte hb, State.afterRequest_of_no_request hreq]
  · rw [step_of_no_byte hrst hb, State.afterRequest, if_pos hreq, exec_resetReq, State.finish_next]
  · rw [step_of_byte hb, State.afterRequest, if_pos hreq]
  · rw [step_of_no_byte hrst hb, State.afterRequest_of_no_request hreq]

/-! ## The byte source's obligation (R122) -/

theorem State.byteWithdrawn_iff {s : State} (hvalid : s.pins.inValid = true) (hb : s.byteTaken = false) :
    s.byteWithdrawn = true ↔ ¬(s.nextPins.inValid = true ∧ s.nextPins.inData = s.pins.inData) := by
  simp [State.byteWithdrawn, hvalid, hb, imp_iff_not_or]

/-- Settles O36: a byte that is offered and not taken is withdrawn unless the next cycle offers it. -/
theorem withdrawnByteIsRefused : Obligations.WithdrawnByteIsRefused := by
  intro s hvalid hready
  have hwithdrawn := State.byteWithdrawn_iff hvalid (State.byteTaken_of_inReady_false hready)
  split
  case isTrue hsame =>
    obtain ⟨t, ht⟩ := step_next s
    exact ⟨t, by rw [checkedStep, if_neg fun hw => hwithdrawn.1 hw hsame, ht], ht⟩
  case isFalse hother => rw [checkedStep, if_pos (hwithdrawn.2 hother)]

/-! ## The configuration (R91, R128) -/

/-- `s` with other levels on `cfg_size_x` and `cfg_size_y`. -/
def State.withSize (cx cy : Short) (s : State) : State :=
  { s with pins := { s.pins with cfgSizeX := cx, cfgSizeY := cy } }

theorem State.withSize_afterRequest (cx cy : Short) (s : State) :
    (s.withSize cx cy).afterRequest = s.afterRequest.withSize cx cy := by
  unfold State.afterRequest
  show (if s.pins.tsResetReq then _ else _) = _
  split <;> rfl

/-- Before byte 3 the decoder selects an operation that reads no configuration (R75). -/
theorem decodeByte_not_frame {ph : Phase} (fb0 fb1 fb2 b : Byte) (h : ph ≠ .fetch3) :
    isFrame (decodeByte ph fb0 fb1 fb2 b) = false ∧ decodeByte ph fb0 fb1 fb2 b ≠ .resetReq := by
  cases ph with
  | scan => rw [decodeByte]; split <;> exact ⟨rfl, nofun⟩
  | fetch1 => exact ⟨rfl, nofun⟩
  | fetch2 => exact ⟨rfl, nofun⟩
  | fetch3 => exact absurd rfl h

theorem exec_withSize {i : Instr} (hframe : isFrame i = false) (hreq : i ≠ .resetReq) (cx cy : Short) (s : State) :
    ∃ r, exec i s = .next r ∧ exec i (s.withSize cx cy) = .next (r.withSize cx cy) := by
  cases i with
  | skip b => exact ⟨_, exec_skip b s, rfl⟩
  | sync b => exact ⟨_, exec_sync b s, rfl⟩
  | collect1 b => exact ⟨_, exec_collect1 b s, rfl⟩
  | collect2 b => exact ⟨_, exec_collect2 b s, rfl⟩
  | frame y x pol t => cases hframe
  | resetReq => exact absurd rfl hreq

/-- Settles O41: the same three cases of an edge, a reset, no byte, or an early byte, at both configurations. -/
theorem configurationIsReadAtByteThree : Obligations.ConfigurationIsReadAtByteThree := by
  intro s cx cy hframe
  show ∃ t u, step s = .next t ∧ step (s.withSize cx cy) = .next u ∧ _
  by_cases hrst : s.pins.rst = true
  case pos => exact ⟨_, _, step_of_reset hrst, step_of_reset hrst, rfl, rfl, rfl⟩
  replace hrst : s.pins.rst = false := by simpa using hrst
  by_cases hb : s.byteTaken = true
  case neg =>
    replace hb : s.byteTaken = false := by simpa using hb
    refine ⟨_, _, step_of_no_byte hrst hb, step_of_no_byte hrst hb, ?_⟩
    rw [State.withSize_afterRequest]
    exact ⟨rfl, rfl, rfl⟩
  have hphase : s.phase ≠ .fetch3 := fun hp => hframe ⟨hb, hp⟩
  obtain ⟨hi, hreq⟩ := decodeByte_not_frame s.fb0 s.fb1 s.fb2 s.pins.inData hphase
  obtain ⟨r, hr, hr'⟩ := exec_withSize hi hreq cx cy s.afterRequest
  refine ⟨s.drive r, (s.withSize cx cy).drive (r.withSize cx cy), ?_, ?_, rfl, rfl, rfl⟩
  · rw [step_of_byte hb, hr, State.finish_next]
  · rw [← State.withSize_afterRequest] at hr'
    rw [← State.finish_next, ← hr']
    exact step_of_byte (s := s.withSize cx cy) hb

/-! ## Parameters and input levels after an edge -/

/-- Every edge settles to registers with the same parameters, and then the input levels move on. -/
theorem exists_drive_of_step {s t : State} (h : step s = .next t) :
    ∃ r, r.params = s.params ∧ t = s.drive r := by
  by_cases hrst : s.pins.rst = true
  · rw [step_of_reset hrst] at h
    cases h
    exact ⟨s.hardwareReset, rfl, rfl⟩
  · rw [step_running_eq (by simpa using hrst)] at h
    split at h
    · obtain ⟨r, hr⟩ := exec_next (decodeByte s.phase s.fb0 s.fb1 s.fb2 s.pins.inData) s.afterRequest
      obtain ⟨hparams, -⟩ := exec_keeps hr
      rw [hr] at h
      cases h
      exact ⟨r, by rw [hparams, State.afterRequest_params], rfl⟩
    · cases h
      exact ⟨s.afterRequest, s.afterRequest_params, rfl⟩

/-- Settles O42: `drive` moves the input levels, and no transaction writes a parameter. -/
theorem stepKeepsParametersAndMovesInputs : Obligations.StepKeepsParametersAndMovesInputs := by
  intro s t h
  obtain ⟨r, hparams, rfl⟩ := exists_drive_of_step h
  refine ⟨hparams, rfl, fun p ps hin => ?_⟩
  rw [State.drive_pins, State.nextPins, hin, List.headD_cons]

end Sys2Proof.Machine
end

section
/-! Proofs about streams (20_memory.md R54): what one transaction does to the bytes held, the event presented and the
command, added up over any stream (10_state.md section 7; 40_frame_synchronizer.md; 41_field_extractor.md;
42_timestamp_reconstructor.md R102). -/

namespace Sys2Proof.Machine

/-! ## Bytes -/

section
variable {t : Transaction} {sx sy : Short} {i : Instr} {s r : State}

/-- A byte is skipped, or counts in the phase until a frame uses up its four. -/
theorem Takes.phaseCount_eq (h : Takes s t i r) :
    phaseCount s.phase + (if StreamItem.isByte ⟨t, sx, sy⟩ then 1 else 0) =
      (if isSkip i then 1 else 0) + 4 * (if isFrame i then 1 else 0) + phaseCount r.phase := by
  cases h with
  | resetReq => exact (Nat.zero_add _).symm
  | skip hphase _ => rw [hphase, State.raise_phase, hphase]; rfl
  | sync hphase _ => rw [hphase]; rfl
  | collect1 hphase => rw [hphase]; rfl
  | collect2 hphase => rw [hphase]; rfl
  | frame hphase _ hexec =>
    obtain ⟨hscan, -⟩ := exec_frame_keeps hexec
    rw [hphase, hscan]
    rfl

theorem State.heldBytes_of_scan (h : s.phase = .scan) : s.heldBytes = [] := by
  rw [State.heldBytes, h]
  rfl

/-- A byte is held after the bytes before it, or none is held any more. -/
theorem Takes.heldBytes_suffix (h : Takes s t i r) :
    r.heldBytes <:+ s.heldBytes ++ [⟨t, sx, sy⟩].filterMap StreamItem.byte? := by
  cases h with
  | resetReq =>
    rw [show [StreamItem.mk .resetReq sx sy].filterMap StreamItem.byte? = [] from rfl, List.append_nil]
    exact List.suffix_rfl
  | skip hphase _ =>
    rw [State.heldBytes_of_scan (s := s.raise .resync) (by rw [State.raise_phase, hphase])]
    exact List.nil_suffix
  | sync hphase _ =>
    rw [State.heldBytes_of_scan hphase]
    exact List.suffix_rfl
  | collect1 hphase =>
    rw [State.heldBytes, State.heldBytes, hphase]
    exact List.suffix_rfl
  | collect2 hphase =>
    rw [State.heldBytes, State.heldBytes, hphase]
    exact List.suffix_rfl
  | frame _ _ hexec =>
    obtain ⟨hscan, -⟩ := exec_frame_keeps hexec
    rw [State.heldBytes_of_scan hscan]
    exact List.nil_suffix

end

/-- Settles O46: `Takes.phaseCount_eq`, added up over the stream. -/
theorem bytesAreSkippedOrFramed : Obligations.BytesAreSkippedOrFramed := by
  intro items s
  simp only [← List.countP_eq_length_filter]
  induction items generalizing s with
  | nil => simp [streamRun, streamInstrs]
  | cons it rest ih =>
    obtain ⟨s', htakes, hrun, hinstrs⟩ := stream_cons it rest s
    have hone := htakes.phaseCount_eq (sx := it.sizeX) (sy := it.sizeY)
    change phaseCount s.phase + (if it.isByte then 1 else 0) = _ at hone
    have hrest := ih s'
    rw [hrun, hinstrs, List.countP_cons, List.countP_cons, List.countP_cons]
    dsimp only
    omega

theorem State.heldBytes_length (s : State) : s.heldBytes.length = phaseCount s.phase := by
  rw [State.heldBytes]
  cases s.phase <;> rfl

/-- Settles O47: `Takes.heldBytes_suffix`, with the later bytes appended on both sides. -/
theorem heldBytesAreTheLastOnes : Obligations.HeldBytesAreTheLastOnes := by
  intro items s
  refine ⟨State.heldBytes_length _, ?_⟩
  induction items generalizing s with
  | nil =>
    rw [List.filterMap_nil, List.append_nil]
    exact List.suffix_rfl
  | cons it rest ih =>
    obtain ⟨s', htakes, hrun, -⟩ := stream_cons it rest s
    have hone : s'.heldBytes <:+ s.heldBytes ++ [it].filterMap StreamItem.byte? := htakes.heldBytes_suffix
    rw [hrun, ← List.singleton_append, List.filterMap_append, ← List.append_assoc]
    exact (ih s').trans (List.suffix_append_self_iff.2 hone)

/-! ## Events and commands -/

theorem State.presented_of_out {s : State} {e : Event} (h : s.out = ⟨true, e⟩) : s.presented = [e] := by
  rw [State.presented, h, if_pos rfl]

theorem State.presented_of_not_valid {s : State} (h : s.out.valid = false) : s.presented = [] := by
  rw [State.presented, h, if_neg Bool.false_ne_true]

section
variable {s r : State} (hout : s.out.valid = false) (hlow : s.strobes = Strobes.low)
include hout hlow

/-- With nothing presented before it, a frame presents the reset event and raises the command, or does neither, and then it
presents at most one event. -/
theorem exec_frame_presented {y x : Address} {pol : Bool} {t : Short} (h : exec (.frame y x pol t) s = .next r) :
    (r.strobes.cmdTsReset = true ∧ r.presented = [resetEvent s.params.resetEventTs]) ∨
    (r.strobes.cmdTsReset = false ∧ (r.presented = [] ∨ ∃ e, e.kind ≠ 2 ∧ r.presented = [e])) := by
  rcases exec_frame_cases h with ⟨-, rfl⟩ | ⟨-, -, rfl⟩ | ⟨-, -, hr⟩
  · exact .inl ⟨rfl, State.presented_of_out rfl⟩
  · exact .inr ⟨by simp [hlow, Strobes.low], .inr ⟨_, by decide, State.presented_of_out rfl⟩⟩
  · refine .inr ⟨by rw [hr.strobes, hlow]; rfl, ?_⟩
    have hevent := hr.out
    split at hevent
    · exact .inr ⟨_, by simp [pixelEvent], State.presented_of_out hevent⟩
    · exact .inl (State.presented_of_not_valid (by rw [hevent, hout]))

/-- One transaction: an event is a frame's, and a command goes with a TIMESTAMP_RESET event. -/
theorem Takes.presented_length {t : Transaction} {i : Instr} (h : Takes s t i r) :
    r.presented.length ≤ (if isFrame i then 1 else 0) ∧
    (if r.strobes.cmdTsReset then 1 else 0) = r.presented.countP fun e => e.kind == 2 := by
  cases h with
  | frame _ _ hexec =>
    rcases exec_frame_presented hout hlow hexec with ⟨hcmd, he⟩ | ⟨hcmd, he | ⟨e, hkind, he⟩⟩ <;> rw [hcmd, he]
    · exact ⟨Nat.le_refl 1, rfl⟩
    · exact ⟨Nat.zero_le 1, rfl⟩
    · exact ⟨Nat.le_refl 1, by simpa using hkind⟩
  | _ => simp [State.presented, isFrame, hout, hlow, Strobes.low]

end

/-- Settles O48: `Takes.presented_length`, added up over the stream. -/
theorem oneEventAFrameOneCommandAReset : Obligations.OneEventAFrameOneCommandAReset := by
  intro items s
  simp only [← List.countP_eq_length_filter]
  induction items generalizing s with
  | nil => exact ⟨Nat.le_refl 0, rfl⟩
  | cons it rest ih =>
    obtain ⟨s', htakes, hrun, hinstrs⟩ := stream_cons it rest s
    obtain ⟨hone, hcmd⟩ := htakes.presented_length rfl rfl
    obtain ⟨hrest, hcmds⟩ := ih s'
    rw [hrun, hinstrs]
    simp only [Sent.append, Strobes.sent, List.length_append, List.countP_append, List.countP_cons]
    omega

/-! ## The sink (30_encoding.md R65, R67) -/

theorem kindOfCode_eq_none_iff (c : BitVec 2) : kindOfCode c = none ↔ c = 3 := by
  revert c
  decide

theorem Event.Legal.kind_and_seal {p : Config.Params} {e : Event} (h : e.Legal p) :
    e.kind ≠ 3 ∧ (e.sealBit = true ↔ e.kind ≠ 0) := by
  rcases h with ⟨hkind, hseal, -⟩ | ⟨-, rfl⟩ | ⟨-, rfl⟩
  · simp [hkind, hseal]
  · simp [wrapEvent]
  · simp [resetEvent]

theorem State.Inv.legal_of_mem_presented {s : State} {e : Event} (h : s.Inv) (he : e ∈ s.presented) :
    e.Legal s.params := by
  obtain ⟨-, hlegal, -⟩ := h
  rw [State.presented] at he
  split at he
  · rwa [List.mem_singleton.1 he]
  · cases he

/-- Every event of a stream is one of the emitted forms, for some parameters (no transaction changes them). -/
theorem streamRun_events_legal (items : List StreamItem) {s : State} (h : s.Inv) :
    ∀ e ∈ (streamRun items s).1.events, ∃ p, e.Legal p := by
  induction items generalizing s with
  | nil => exact fun e he => nomatch he
  | cons it rest ih =>
    obtain ⟨s', htakes, hrun, -⟩ := stream_cons it rest s
    have hinv : s'.Inv := htakes.keeps_inv (s := it.before s) h
    intro e he
    rw [hrun] at he
    rcases List.mem_append.1 he with hnow | hlater
    · exact ⟨_, hinv.legal_of_mem_presented hnow⟩
    · exact ih hinv e hlater

theorem Sink.append_of_kind {e : Event} (h : e.kind ≠ 3) (k : Sink) : k.append e = .next
    (if e.sealBit then ⟨[], k.sealedBatches ++ [k.openBatch ++ [e]]⟩ else ⟨k.openBatch ++ [e], k.sealedBatches⟩) := by
  rw [Sink.append]
  rcases hk : kindOfCode e.kind with _ | kind
  · exact absurd ((kindOfCode_eq_none_iff _).1 hk) h
  · dsimp only
    split <;> rfl

theorem Sink.appendAll_of_kinds {es : List Event} (h : ∀ e ∈ es, e.kind ≠ 3) (k : Sink) :
    ∃ k', Sink.appendAll es k = .next k' := by
  induction es generalizing k with
  | nil => exact ⟨k, rfl⟩
  | cons e es ih =>
    obtain ⟨hkind, hrest⟩ := List.forall_mem_cons.1 h
    rw [Sink.appendAll, Sink.append_of_kind hkind]
    exact ih hrest _

/-- Settles O49: the invariant holds along the stream, and a legal event is of no reserved kind. -/
theorem sinkTakesEveryEvent : Obligations.SinkTakesEveryEvent := by
  intro items s k hinv
  have hevents : ∀ e ∈ (streamRun items s).1.events, e.kind ≠ 3 ∧ (e.sealBit = true ↔ e.kind ≠ 0) := by
    intro e he
    obtain ⟨p, hlegal⟩ := streamRun_events_legal items hinv e he
    exact hlegal.kind_and_seal
  exact ⟨Sink.appendAll_of_kinds (fun e he => (hevents e he).1) k, hevents⟩

/-! ## Batches (41_field_extractor.md R87, log entry 18) -/

/-- All events that a sink has taken, oldest first. -/
def Sink.contents (k : Sink) : List Event := k.sealedBatches.flatten ++ k.openBatch

/-- Every sealed batch ends with the event that sealed it, and no other event carries the seal. -/
def Sink.EndsAtSeals (k : Sink) : Prop :=
  (∀ batch ∈ k.sealedBatches, ∃ front e, batch = front ++ [e] ∧ e.sealBit = true ∧ ∀ f ∈ front, f.sealBit = false) ∧
  ∀ e ∈ k.openBatch, e.sealBit = false

theorem Sink.append_kind {e : Event} {k k' : Sink} (h : k.append e = .next k') : e.kind ≠ 3 := by
  intro hkind
  rw [Sink.append, (kindOfCode_eq_none_iff _).2 hkind] at h
  cases h

theorem Sink.append_contents {e : Event} {k k' : Sink} (h : k.append e = .next k') :
    k'.contents = k.contents ++ [e] := by
  rw [Sink.append_of_kind (Sink.append_kind h)] at h
  cases h
  cases e.sealBit <;> simp [Sink.contents]

theorem Sink.append_endsAtSeals {e : Event} {k k' : Sink} (hk : k.EndsAtSeals) (h : k.append e = .next k') :
    k'.EndsAtSeals := by
  obtain ⟨hsealed, hopen⟩ := hk
  rw [Sink.append_of_kind (Sink.append_kind h)] at h
  cases h
  split
  case isTrue hseal =>
    refine ⟨fun batch hb => ?_, fun f hf => nomatch hf⟩
    rcases List.mem_append.1 hb with hold | hnew
    · exact hsealed batch hold
    · exact ⟨k.openBatch, e, List.mem_singleton.1 hnew, hseal, hopen⟩
  case isFalse hseal =>
    refine ⟨hsealed, fun f hf => ?_⟩
    rcases List.mem_append.1 hf with hold | hnew
    · exact hopen f hold
    · rw [List.mem_singleton.1 hnew]
      simpa using hseal

theorem Sink.appendAll_cons {e : Event} {es : List Event} {k k' : Sink}
    (h : Sink.appendAll (e :: es) k = .next k') :
    ∃ q, k.append e = .next q ∧ Sink.appendAll es q = .next k' := by
  rw [Sink.appendAll] at h
  split at h
  case h_1 q hq => exact ⟨q, hq, h⟩
  case h_2 => cases h
  case h_3 => cases h

theorem Sink.appendAll_keeps {es : List Event} {k k' : Sink} (hk : k.EndsAtSeals)
    (h : Sink.appendAll es k = .next k') : k'.contents = k.contents ++ es ∧ k'.EndsAtSeals := by
  induction es generalizing k with
  | nil =>
    cases h
    exact ⟨(List.append_nil _).symm, hk⟩
  | cons e es ih =>
    obtain ⟨q, hq, hrest⟩ := Sink.appendAll_cons h
    obtain ⟨hcontents, hends⟩ := ih (Sink.append_endsAtSeals hk hq) hrest
    exact ⟨by rw [hcontents, Sink.append_contents hq, List.append_assoc, List.singleton_append], hends⟩

/-- Settles O50: an empty sink holds nothing and ends at seals, and every event taken keeps that. -/
theorem batchesEndAtSeals : Obligations.BatchesEndAtSeals := by
  intro es k h
  have hempty : Sink.EndsAtSeals ⟨[], []⟩ := ⟨fun _ hb => (nomatch hb), fun _ he => nomatch he⟩
  obtain ⟨hcontents, hends⟩ := Sink.appendAll_keeps hempty h
  exact ⟨hcontents, hends⟩

end Sys2Proof.Machine
end

section
/-! Proofs that the two levels of description agree (43_ports_and_handshake.md R130): one edge and the stream of the items
it takes, then any number of edges. -/

namespace Sys2Proof.Machine

/-! ## Streams of one item -/

theorem Sent.append_nothing (a : Sent) : a.append Sent.nothing = a := by
  simp [Sent.append, Sent.nothing]

theorem Sent.nothing_append (a : Sent) : Sent.nothing.append a = a := by
  simp [Sent.append, Sent.nothing]

theorem streamRun_singleton {it : StreamItem} {s r : State} (h : exec (it.txn.select s) (it.before s) = .next r) :
    streamRun [it] s = (r.strobes.sent r.presented, r) := by
  rw [← select_before] at h
  rw [streamRun, transact, h]
  simp only [streamRun, Sent.append_nothing]

/-! ## One edge -/

/-- An item that an edge takes, with the configuration of that edge (R91). -/
def State.edgeItem (s : State) (t : Transaction) : StreamItem := ⟨t, s.pins.cfgSizeX, s.pins.cfgSizeY⟩

/-- What an edge takes after its request. -/
def State.byteItems (s : State) : List StreamItem := if s.byteTaken then [s.edgeItem (.byte s.pins.inData)] else []

theorem State.edgeItems_eq {s : State} (hrst : s.pins.rst = false) :
    s.edgeItems = (if s.pins.tsResetReq then [s.edgeItem .resetReq] else []) ++ s.byteItems := by
  rw [State.edgeItems, State.transactions_of_running hrst, List.map_append, State.byteItems]
  congr 1 <;> split <;> rfl

/-- A request sends nothing and sets the latch, as `afterRequest` does. -/
theorem streamRun_request (s : State) :
    (streamRun (if s.pins.tsResetReq then [s.edgeItem .resetReq] else []) s).1 = Sent.nothing ∧
    (streamRun (if s.pins.tsResetReq then [s.edgeItem .resetReq] else []) s).2.registers =
      s.afterRequest.registers := by
  rw [State.afterRequest_registers]
  by_cases hreq : s.pins.tsResetReq = true
  · rw [if_pos hreq, streamRun_singleton (it := s.edgeItem .resetReq) (exec_resetReq _), hreq, Bool.or_true]
    exact ⟨rfl, rfl⟩
  · rw [if_neg hreq, Bool.eq_false_iff.2 hreq, Bool.or_false]
    exact ⟨rfl, rfl⟩

/-- The events that an edge transfers (R125). -/
def State.transferred (s : State) : List Event := if s.eventTaken then [s.out.ev] else []

theorem State.transferred_append_presented (s : State) : s.transferred ++ s.afterRequest.presented = s.presented := by
  rw [State.transferred, State.presented, State.presented, State.afterRequest_out]
  rcases hv : s.out.valid <;> rcases he : s.pins.evReady <;> simp [State.eventTaken, hv, he]

/-- The operation of a taken byte does the same at both levels: the output register is free at each. -/
theorem exec_byte_agrees {s r q : State} {i : Instr} (hb : s.byteTaken = true)
    (hr : exec i s.afterRequest = .next r)
    (hq : exec i ((s.edgeItem (.byte s.pins.inData)).before s.afterRequest) = .next q) :
    q.registers = r.registers ∧ q.strobes = r.strobes ∧ q.presented = r.presented := by
  have hsame : SameInputs ((s.edgeItem (.byte s.pins.inData)).before s.afterRequest) s.afterRequest :=
    ⟨rfl, by rw [s.afterRequest_pins]; rfl, by rw [s.afterRequest_pins]; rfl, s.afterRequest_strobes.symm⟩
  obtain ⟨⟨hregs, -, -, hstr⟩, hout⟩ := exec_sameInputs i hsame hq hr
  refine ⟨hregs, hstr, ?_⟩
  rcases hout with ⟨hq', hr'⟩ | ⟨heq, -⟩
  · obtain ⟨hfree, -⟩ := State.byteTaken_frees_out hb
    rw [State.presented_of_not_valid (s := q) (by rw [hq']; rfl),
      State.presented_of_not_valid (s := r) (by rw [hr', s.afterRequest_out, hfree])]
  · rw [State.presented, State.presented, heq]

/-- The byte of an edge, if it takes one, as a stream from the state that the request left. -/
theorem step_agrees_afterRequest {s t : State} (hrst : s.pins.rst = false) (h : step s = .next t) :
    (streamRun s.byteItems s.afterRequest).2.registers = t.registers ∧
    s.presented ++ (streamRun s.byteItems s.afterRequest).1.events = s.transferred ++ t.presented ∧
    (streamRun s.byteItems s.afterRequest).1 =
      t.strobes.sent (streamRun s.byteItems s.afterRequest).1.events := by
  rw [State.byteItems, ← s.transferred_append_presented, List.append_assoc]
  by_cases hb : s.byteTaken = true
  · obtain ⟨r, hr⟩ := exec_next (decodeByte s.phase s.fb0 s.fb1 s.fb2 s.pins.inData) s.afterRequest
    rw [step_of_byte hb, hr] at h
    cases h
    obtain ⟨hfree, -⟩ := State.byteTaken_frees_out hb
    obtain ⟨q, hq⟩ := exec_next (decodeByte s.phase s.fb0 s.fb1 s.fb2 s.pins.inData)
      ((s.edgeItem (.byte s.pins.inData)).before s.afterRequest)
    obtain ⟨hregs, hstr, hpres⟩ := exec_byte_agrees hb hr hq
    have hrun : streamRun [s.edgeItem (.byte s.pins.inData)] s.afterRequest = (q.strobes.sent q.presented, q) :=
      streamRun_singleton (by simpa [State.edgeItem, select_byte] using hq)
    rw [if_pos hb, hrun, hstr, hpres,
      State.presented_of_not_valid (s := s.afterRequest) (by rw [s.afterRequest_out, hfree])]
    exact ⟨hregs, rfl, rfl⟩
  · rw [step_of_no_byte hrst (by simpa using hb)] at h
    cases h
    rw [if_neg hb]
    refine ⟨rfl, ?_, ?_⟩
    · simp [streamRun, Sent.nothing, State.presented]
    · simp [streamRun, Sent.nothing, Strobes.sent, Strobes.conditions, Strobes.low]

/-- One edge agrees with the stream of its items. -/
theorem step_agrees {s t : State} (hrst : s.pins.rst = false) (h : step s = .next t) :
    (streamRun s.edgeItems s).2.registers = t.registers ∧
    s.presented ++ (streamRun s.edgeItems s).1.events = s.transferred ++ t.presented ∧
    (streamRun s.edgeItems s).1 = t.strobes.sent (streamRun s.edgeItems s).1.events := by
  obtain ⟨hsent, hregs⟩ := streamRun_request s
  obtain ⟨hbyte, hbyteRegs⟩ := streamRun_of_registers s.byteItems hregs
  rw [State.edgeItems_eq hrst, streamRun_append, hsent, hbyte, hbyteRegs, Sent.nothing_append]
  exact step_agrees_afterRequest hrst h

/-! ## Any number of edges -/

theorem core_run_eq_cycles (n : Nat) (s : State) : Host.Core.run Sys2Proof.core n s = .next (cycles n s) := by
  induction n generalizing s with
  | zero => rfl
  | succ n ih =>
    obtain ⟨t, ht⟩ := step_next s
    rw [core_run_succ Sys2Proof.core ht, ih, cycles_succ, cycles_one ht]

/-- Settles O44: `step_agrees` for the first edge; the stream then goes on from registers equal to the next cycle's. -/
theorem cyclesAgreeWithTransactions : Obligations.CyclesAgreeWithTransactions := by
  intro n s hlow
  refine ⟨core_run_eq_cycles n s, ?_⟩
  induction n generalizing s with
  | zero => simp [cycles, itemsTaken, streamRun, portsSent, Sent.nothing]
  | succ n ih =>
    obtain ⟨hrst, hlow'⟩ := (resetLow_succ n s).1 hlow
    obtain ⟨t, ht⟩ := step_next s
    obtain ⟨hregs, hevents, hsent⟩ := step_agrees hrst ht
    have hone := cycles_one ht
    rw [hone] at hlow'
    obtain ⟨ihregs, ihevents, ihcommands, ihconditions⟩ := ih t hlow'
    obtain ⟨hrun, hrunRegs⟩ := streamRun_of_registers (itemsTaken n t) hregs
    rw [itemsTaken, cycles_succ, hone, streamRun_append, portsSent, hone, hrun, hrunRegs]
    refine ⟨ihregs, ?_, ?_, ?_⟩
    · calc s.presented ++ ((streamRun s.edgeItems s).1.events ++ (streamRun (itemsTaken n t) t).1.events)
          = s.transferred ++ (t.presented ++ (streamRun (itemsTaken n t) t).1.events) := by
            rw [← List.append_assoc, hevents, List.append_assoc]
        _ = s.transferred ++ (portsSent n t).events ++ (cycles n t).presented := by
            rw [ihevents, List.append_assoc]
    · rw [hsent]
      simp only [Sent.append, Strobes.sent, ihcommands]
    · rw [hsent]
      simp only [Sent.append, Strobes.sent, ihconditions]

/-- Settles O45: by `cyclesAgreeWithTransactions` each run ends and sends as the stream of its items does, and that stream
depends on the registers it starts from only. -/
theorem deliveryTimingDoesNotMatter : Obligations.DeliveryTimingDoesNotMatter := by
  intro n m s u hs hu hregs hpres hitems
  obtain ⟨-, hsRegs, hsEvents, -⟩ := cyclesAgreeWithTransactions n s hs
  obtain ⟨-, huRegs, huEvents, -⟩ := cyclesAgreeWithTransactions m u hu
  obtain ⟨hsent, hend⟩ := streamRun_of_registers (itemsTaken m u) hregs
  rw [hitems] at hsRegs hsEvents
  exact ⟨by rw [hsRegs, huRegs, hend], by rw [← hsEvents, ← huEvents, hpres, hsent]⟩

end Sys2Proof.Machine
end
